-- ==== Sys2Proof/Word.lean ====
section
/-! DEFINITION. The word types of the ClockDelay engine, each with the width the spec gives it. -/

namespace Sys2Proof

/-- An event word `W[19:0]` (R54): 20 bits, never split into parts (R50). -/
abbrev Word := BitVec 20

/-- `EC_W` = 5: the width of an EdgeCounter's `pos` and `val` (R10, R11, R12). -/
abbrev Count := BitVec 5

/-- `T_W` = 16: the width of every numeric field of a OneShotTimer (R10, R13, R14). -/
abbrev Ticks := BitVec 16

/-- A logical level of a line (R8): `true` is 1, "on"; `false` is 0, "off", "idle". -/
abbrev Level := Bool

end Sys2Proof
end

