-- ==== Sys2Proof/Config.lean ====
section
/-! DEFINITION. What an implementation fixes (spec/00_scope.md section 4): the bound on a modulus and the open tick rate.
`FALLMARK_RESET` stands in Machine/Params.lean, where a later repair can change it. -/

namespace Sys2Proof

/-- `EC_MAX`: the largest legal modulus of an EdgeCounter (R11, R59). -/
def Config.ecMax : Nat := 16

/-- The values of `TICK_HZ`, the rate of the TICK event in ticks per second: any positive real number (D17). -/
abbrev Config.TickRate := Set.Ioi (0 : ℝ)

/-- Where in a tick period the edge fell (R194): the part of a period from the edge to the first tick after it. Both
ends are taken in, since an edge may coincide with a tick in either order (DESIGN CHOICE, log entry 6). -/
abbrev Config.TickPhase := Set.Icc (0 : ℝ) 1

/-- "The wall-clock meaning of `value` is `value / tickRate` seconds" (R167, R194). The open parameter `TICK_HZ` is the
argument `rate` (D17); no rule of the machine reads it. -/
noncomputable def Config.seconds (rate : Config.TickRate) (ticks : ℕ) : ℝ := ticks / (rate : ℝ)

/-- The time, in seconds after an edge, of the `k`th tick after it, the first of them coming `phase` of a tick period
after the edge (R194). -/
noncomputable def Config.tickSeconds (rate : Config.TickRate) (phase : Config.TickPhase) (k : ℕ) : ℝ :=
  ((k : ℝ) - 1 + (phase : ℝ)) / (rate : ℝ)

end Sys2Proof
end

