-- ==== Sys2Proof/Syntax.lean ====
section
/-! DEFINITION. The ten operations (R53), one constructor per row of spec/opcode_table.json, and the reserved words' kinds. -/

namespace Sys2Proof

/-- The operations of the block (R53), with the operands R56 reads from the event word. -/
inductive Instr where
  /-- RISE: a rising edge of the external clock line (R125). -/
  | rise
  /-- FALL: a falling edge of the external clock line (R126). -/
  | fall
  /-- TICK: one period of the fixed-rate tick source (R127). -/
  | tick
  /-- RSTA: the reset line becomes asserted (R128). -/
  | rsta
  /-- RSTR: the reset line is released (R129). -/
  | rstr
  /-- MSEL a, b: the levels of the mode-select inputs A and B (R116). -/
  | msel (a b : Level)
  /-- SETDIV v: write `DIV.val`, `v <= 16` (R150). -/
  | setdiv (v : Count)
  /-- SETCNT v: write `CNT.val`, `v <= 16` (R151). -/
  | setcnt (v : Count)
  /-- SETDLY v: write `DLY.val` (R152). -/
  | setdly (v : Ticks)
  /-- SETSWG v: write `SWG.val` (R153). -/
  | setswg (v : Ticks)
  deriving DecidableEq, Repr

/-- Why a word is reserved: the three cases of R59, each with the word itself (the `Reserved(W)` of R61). Where two
cases hold of one word, the first in R61's order is named (log entry 4). -/
inductive Reserved where
  /-- `op` is 0x0, 0x7, 0xC, 0xD, 0xE or 0xF. -/
  | unusedOp (w : Word)
  /-- A must-be-zero bit of R55 is 1. -/
  | mustBeZero (w : Word)
  /-- SETDIV or SETCNT with `arg[4:0] > 16`. -/
  | operandAboveMax (w : Word)
  deriving DecidableEq, Repr

end Sys2Proof
end

