-- ==== Sys2Proof/WellFormed.lean ====
section
/-! DEFINITION. Which operand values an operation may have (R53, R59). -/

namespace Sys2Proof

/-- The operand checks of R59: SETDIV and SETCNT take 0 to 16, every other operand takes all its values. -/
def Instr.wellFormed : Instr → Bool
  | .rise | .fall | .tick | .rsta | .rstr => true
  | .msel _ _ => true
  | .setdiv v => v.toNat ≤ Config.ecMax
  | .setcnt v => v.toNat ≤ Config.ecMax
  | .setdly _ => true
  | .setswg _ => true

/-- `i` is one of the operations R53 lists, with a legal operand. -/
abbrev Instr.WellFormed (i : Instr) : Prop := i.wellFormed = true

end Sys2Proof
end

