-- ==== Sys2Proof/Decode.lean ====
section
/-! DEFINITION. The decoder of R61, total on all words and refusing by name, and the encoder of R57. -/

namespace Sys2Proof

/-- `W[19:16]`, the operation code (R54). -/
def opField (w : Word) : BitVec 4 := w.extractLsb' 16 4

/-- `W[15:0]`, the operand (R54). -/
def argField (w : Word) : BitVec 16 := w.extractLsb' 0 16

/-- An operation that uses no operand bit: `arg[15:0]` must be zero (R55). -/
def decodeBare (w : Word) (i : Instr) : Except Reserved Instr :=
  if argField w = 0 then .ok i else .error (.mustBeZero w)

/-- MSEL: `A = W[0]`, `B = W[1]`, `arg[15:2]` must be zero (R55, R56). -/
def decodeMsel (w : Word) : Except Reserved Instr :=
  if w.extractLsb' 2 14 = 0 then .ok (.msel (w.getLsbD 0) (w.getLsbD 1)) else .error (.mustBeZero w)

/-- SETDIV and SETCNT: `v = W[4:0]`, `arg[15:5]` must be zero and `v <= 16` (R55, R56, R59). -/
def decodeModulus (w : Word) (mk : Count → Instr) : Except Reserved Instr :=
  if w.extractLsb' 5 11 = 0 then
    if (w.extractLsb' 0 5).toNat ≤ Config.ecMax then .ok (mk (w.extractLsb' 0 5)) else .error (.operandAboveMax w)
  else .error (.mustBeZero w)

/-- The decoding algorithm of R61 over the operation codes of R55. -/
def decode (w : Word) : Except Reserved Instr :=
  match (opField w).toNat with
  | 0x1 => decodeBare w .rise
  | 0x2 => decodeBare w .fall
  | 0x3 => decodeBare w .tick
  | 0x4 => decodeBare w .rsta
  | 0x5 => decodeBare w .rstr
  | 0x6 => decodeMsel w
  | 0x8 => decodeModulus w .setdiv
  | 0x9 => decodeModulus w .setcnt
  | 0xA => .ok (.setdly (argField w))
  | 0xB => .ok (.setswg (argField w))
  | _ => .error (.unusedOp w)

/-- The event word of an operation, as the assembler table of R57 writes it. -/
def encode : Instr → Word
  | .rise => 0x10000#20
  | .fall => 0x20000#20
  | .tick => 0x30000#20
  | .rsta => 0x40000#20
  | .rstr => 0x50000#20
  | .msel a b => BitVec.ofNat 20 (0x60000 + 2 * b.toNat + a.toNat)
  | .setdiv v => BitVec.ofNat 20 (0x80000 + v.toNat)
  | .setcnt v => BitVec.ofNat 20 (0x90000 + v.toNat)
  | .setdly v => BitVec.ofNat 20 (0xA0000 + v.toNat)
  | .setswg v => BitVec.ofNat 20 (0xB0000 + v.toNat)

/-- The event word held by `nbits` bits numbered as spec/opcode_table.json numbers them; `none` where a bit above
bit 19 is set, which no event word has (R54; log entry 10). -/
def tableWord (nbits w : Nat) : Option Word :=
  if w % 2 ^ nbits < 2 ^ 20 then some (BitVec.ofNat 20 (w % 2 ^ nbits)) else none

/-- The operation the decoder reads from the bits `w` of an opcode-table row. -/
def decodeTableWord (nbits w : Nat) : Option Instr :=
  match tableWord nbits w with
  | some v => (decode v).toOption
  | none => none

end Sys2Proof
end

