-- ==== Sys2Proof/Machine/Params.lean ====
section
/-! DEFINITION. The named constant of the machine that the spec asks a model to keep by name. -/

namespace Sys2Proof.Machine

/-- `FALLMARK_RESET` = 0x0000: the value of a timer's `fall` after power-on and after RSTA (R26, R93, R188). -/
def fallmarkReset : Ticks := 0x0000#16

end Sys2Proof.Machine
end

