-- ==== Sys2Proof/Machine/State.lean ====
section
/-! DEFINITION. The state of the block (R10: twenty registers, nothing else) with the event stream the environment
presents, the reasons for a stop, and the power-on state (R26). -/

namespace Sys2Proof.Machine

/-- An EdgeCounter (R11, R12). -/
structure EdgeCounter where
  /-- Rising edges counted since the last wrap. -/
  pos : Count
  /-- The modulus. -/
  val : Count
  /-- The output state. -/
  out : Level
  deriving DecidableEq, Repr

/-- A OneShotTimer (R13, R14). -/
structure OneShotTimer where
  /-- `riseMark`: the delay latched at arming. -/
  rise : Ticks
  /-- `fallMark`: the tick after which the output goes off. -/
  fall : Ticks
  /-- The configured delay. -/
  val : Ticks
  /-- Ticks counted since arming. -/
  pos : Ticks
  /-- `running`. -/
  run : Level
  deriving DecidableEq, Repr

/-- The operating mode held by the 2-bit register `MODE` (R15, R115); `Mode.code` gives the register's number
(DESIGN CHOICE, log entry 7). -/
inductive Mode where
  | disabled
  | divideAndDelay
  | divideAndCount
  | swing
  deriving DecidableEq, Repr

/-- All the state: the registers of R10, and `events`, the model's own field. -/
structure State where
  /-- The divider `DIV` (R11); `DIV.out` is also the line `OUT_DIV` (R17). -/
  div : EdgeCounter
  /-- The counter `CNT` (R12). -/
  cnt : EdgeCounter
  /-- The delay timer `DLY` (R13). -/
  dly : OneShotTimer
  /-- The swing timer `SWG` (R14). -/
  swg : OneShotTimer
  /-- `MODE` (R15). -/
  mode : Mode
  /-- `HOLD`: the level of the reset line (R16). -/
  hold : Level
  /-- `OUT_DLY`, the delay-or-count output (R18). -/
  outDly : Level
  /-- `OUT_CMB`, the combined output (R19). -/
  outCmb : Level
  /-- THE MODEL'S OWN FIELD, no register of the block: the event words the environment has still to present, the next
  one first (R22, R23, R58). DESIGN CHOICE (log entry 1). -/
  events : List Word
  deriving DecidableEq, Repr

/-- The block has no fault mechanism and no operation faults (R160; spec/93_implementation_defined.md), so there is
no fault: nobody raises one. Safe (log entry 11). -/
inductive Fault where
  deriving DecidableEq, Repr

/-- Why a step has no meaning. -/
inductive Refusal where
  /-- An instruction whose arm of `exec` has no meaning yet, by its mnemonic. No arm raises it. Safe. -/
  | notModelled (mnemonic : String)
  /-- `step` raises it when the next event word is reserved: the spec says a model refuses such a word at decode and
  gives the block no response to it (R59, R162). Safe: the machine stops. -/
  | reservedWord (why : Reserved)
  deriving DecidableEq, Repr

/-- An EdgeCounter at power-on: every field 0 (R11, R12, R26). -/
def EdgeCounter.powerOn : EdgeCounter := { pos := 0, val := 0, out := false }

/-- A OneShotTimer at power-on: every field 0, `fall` being `FALLMARK_RESET` (R13, R14, R26). -/
def OneShotTimer.powerOn : OneShotTimer := { rise := 0, fall := fallmarkReset, val := 0, pos := 0, run := false }

/-- The machine at power-on (R26), before the first event word (R180), with no event presented yet: not the state the
operation RSTA leaves (DEDUCED, log entry 8). -/
def State.reset : State :=
  { div := EdgeCounter.powerOn, cnt := EdgeCounter.powerOn
    dly := OneShotTimer.powerOn, swg := OneShotTimer.powerOn
    mode := .disabled, hold := false, outDly := false, outCmb := false
    events := [] }

end Sys2Proof.Machine
end

