-- ==== Sys2Proof/Machine/Flags.lean ====
section
/-! DEFINITION. The conditions the rules test. The block has no flags register, condition code or carry (R21): the 1-bit
state is `DIV.out`, `CNT.out`, `DLY.run`, `SWG.run` and `HOLD`, and the rest are comparisons. -/

namespace Sys2Proof.Machine

/-- The 6-bit sum `p1 = zext_6(pos) + 1` (R70). -/
def EdgeCounter.nextPos (c : EdgeCounter) : BitVec 6 := c.pos.setWidth 6 + 1

/-- The wrap test `p1 >= zext_6(val)` of `EC_next` (R70) and of `DIV_fall` (R75). -/
def EdgeCounter.wraps (c : EdgeCounter) : Bool := c.val.setWidth 6 ≤ c.nextPos

/-- "`pos` exceeds `rise`": strict, unsigned (R92). -/
def OneShotTimer.pastRise (t : OneShotTimer) : Bool := t.rise < t.pos

/-- "`pos` exceeds `fall`": strict, unsigned (R92). -/
def OneShotTimer.pastFall (t : OneShotTimer) : Bool := t.fall < t.pos

/-- The count gate: `DIV.out == 1 and CNT.out == 1` (R125). -/
def State.gate (s : State) : Bool := s.div.out && s.cnt.out

end Sys2Proof.Machine
end

