-- ==== Sys2Proof/Machine/Operands.lean ====
section
/-! DEFINITION. How operands select what an operation acts on: the mode the two inputs select (R116, R117), the codes of
`MODE` (R15), and the component parameters `c` and `t` of the procedures (R8). Operand fields of the event word are taken by
the decoder as they stand (R56). -/

namespace Sys2Proof.Machine

/-- The number `MODE` holds for a mode (R15, R115). -/
def Mode.code : Mode → BitVec 2
  | .disabled => 0
  | .divideAndDelay => 1
  | .divideAndCount => 2
  | .swing => 3

/-- The mode that the levels of inputs A and B select (R116). -/
def modeOfInputs (a b : Level) : Mode :=
  if b then .divideAndCount else if a then .divideAndDelay else .swing

/-- The parameter `c` of `EC_next` (R70). -/
inductive CounterName where
  | div
  | cnt
  deriving DecidableEq, Repr

/-- The parameter `t` of the timer procedures (R90 to R94). -/
inductive TimerName where
  | dly
  | swg
  deriving DecidableEq, Repr

end Sys2Proof.Machine
end

