-- ==== Sys2Proof/Machine/Ops.lean ====
section
/-! DEFINITION. The named reads and writes of registers and lines, what the environment sees, and taking the next event
word. The block has no memory (R40) and takes no exception (R160, R164), so there are no operations for either. -/

namespace Sys2Proof.Machine

/-- Read a counter component. -/
def State.counter (s : State) : CounterName → EdgeCounter
  | .div => s.div
  | .cnt => s.cnt

/-- Write a counter component. -/
def State.setCounter (s : State) : CounterName → EdgeCounter → State
  | .div, c => { s with div := c }
  | .cnt, c => { s with cnt := c }

/-- Read a timer component. -/
def State.timer (s : State) : TimerName → OneShotTimer
  | .dly => s.dly
  | .swg => s.swg

/-- Write a timer component. -/
def State.setTimer (s : State) : TimerName → OneShotTimer → State
  | .dly, t => { s with dly := t }
  | .swg, t => { s with swg := t }

/-- The line a timer's `on` and `off` write (R94). -/
def State.line (s : State) : TimerName → Level
  | .dly => s.outDly
  | .swg => s.outCmb

/-- A timer's `on` (`true`) or `off` (`false`): one write of its line and nothing else (R94). -/
def State.drive (s : State) : TimerName → Level → State
  | .dly, l => { s with outDly := l }
  | .swg, l => { s with outCmb := l }

/-- Write `OUT_CMB` directly, as the engine does (R19). -/
def State.setOutCmb (s : State) (l : Level) : State := { s with outCmb := l }

/-- Write `MODE`. -/
def State.setMode (s : State) (m : Mode) : State := { s with mode := m }

/-- Write `HOLD`. -/
def State.setHold (s : State) (l : Level) : State := { s with hold := l }

/-- The three levels the environment sees (R27, R58). -/
structure Outputs where
  div : Level
  dly : Level
  cmb : Level
  deriving DecidableEq, Repr

/-- `OUT_DIV`, `OUT_DLY`, `OUT_CMB`; `OUT_DIV` is `DIV.out` (R17, R27). -/
def State.outputs (s : State) : Outputs := { div := s.div.out, dly := s.outDly, cmb := s.outCmb }

/-- Take the next event word from the stream: each word is consumed once, in order (R44, R58). -/
def State.fetch (s : State) : Option (Word × State) :=
  match s.events with
  | [] => none
  | w :: rest => some (w, { s with events := rest })

/-- Present one event word as the next one (log entry 3). -/
def State.present (s : State) (w : Word) : State := { s with events := w :: s.events }

end Sys2Proof.Machine
end

