-- ==== Sys2Proof/Machine/EdgeCounter.lean ====
section
/-! DEFINITION. The micro-operations of the EdgeCounters: R70 to R76. -/

namespace Sys2Proof.Machine

/-- `EC_next(c)` (R70): the modulo step; answers whether it wrapped. Writes `c.pos` only. -/
def ecNext (c : CounterName) (s : State) : State × Bool :=
  if (s.counter c).wraps then
    (s.setCounter c { s.counter c with pos := 0 }, true)
  else
    (s.setCounter c { s.counter c with pos := (s.counter c).nextPos.setWidth 5 }, false)

/-- Every write of `CNT.out` writes the same level to `OUT_DLY` (R18, R71 to R73). -/
def State.assertCnt (s : State) (l : Level) : State := { s with cnt := { s.cnt with out := l }, outDly := l }

/-- Write `DIV.out`, which is the line `OUT_DIV` (R17). -/
def State.assertDiv (s : State) (l : Level) : State := { s with div := { s.div with out := l } }

/-- `CNT_rise` (R71). -/
def cntRise (s : State) : State := (ecNext .cnt s).1.assertCnt (ecNext .cnt s).2

/-- `CNT_fall` (R72). -/
def cntFall (s : State) : State := s.assertCnt false

/-- `CNT_reset` (R73). -/
def cntReset (s : State) : State := (s.setCounter .cnt { s.cnt with pos := 0 }).assertCnt false

/-- `DIV_rise` (R74). -/
def divRise (s : State) : State := (ecNext .div s).1.assertDiv (ecNext .div s).2

/-- `DIV_fall` (R75). -/
def divFall (s : State) : State := if s.div.out && s.div.wraps then s.assertDiv false else s

/-- `DIV_reset` (R76). -/
def divReset (s : State) : State := (s.setCounter .div { s.div with pos := s.div.val }).assertDiv false

end Sys2Proof.Machine
end

