-- ==== Sys2Proof/Machine/OneShotTimer.lean ====
section
/-! DEFINITION. The micro-operations of the OneShotTimers, for `DLY` and `SWG` alike: R90 to R96, R110. -/

namespace Sys2Proof.Machine

/-- `T_rise(t)` (R90): arm. It writes neither `fall` nor the line, also when the timer runs (R95). -/
def timerRise (t : TimerName) (s : State) : State :=
  s.setTimer t { s.timer t with rise := (s.timer t).val, pos := 0, run := true }

/-- `T_fall(t)` (R91): `fall` takes `(rise + pos)` modulo 2^16, whether or not the timer runs. -/
def timerFall (t : TimerName) (s : State) : State :=
  s.setTimer t { s.timer t with
    fall := (((s.timer t).rise.setWidth 17 + (s.timer t).pos.setWidth 17 : BitVec 17)).setWidth 16 }

/-- The first half of a running `T_clock(t)` (R92): count, modulo 2^16 (R96). -/
def timerCount (t : TimerName) (s : State) : State :=
  s.setTimer t { s.timer t with pos := (s.timer t).pos + 1 }

/-- R92's "on" test: past `rise`, the line is asserted on. -/
def timerOn (t : TimerName) (s : State) : State :=
  if (s.timer t).pastRise then s.drive t true else s

/-- R92's "off" test: past `fall`, the line is asserted off and the timer stops. -/
def timerOff (t : TimerName) (s : State) : State :=
  if (s.timer t).pastFall then (s.drive t false).setTimer t { s.timer t with run := false } else s

/-- `T_clock(t)` (R92, R99): nothing at all when stopped; else count, then "on", then "off". -/
def timerClock (t : TimerName) (s : State) : State :=
  if (s.timer t).run then timerOff t (timerOn t (timerCount t s)) else s

/-- The state `k` ticks after an arming, with the falling edge taken after tick `h` (the sequence of R98). -/
def timerPulse (t : TimerName) (h k : Nat) (s : State) : State :=
  if k ≤ h then (timerClock t)^[k] (timerRise t s)
  else (timerClock t)^[k - h] (timerFall t ((timerClock t)^[h] (timerRise t s)))

/-- `T_reset(t)` (R93). -/
def timerReset (t : TimerName) (s : State) : State :=
  (s.setTimer t { s.timer t with run := false, pos := 0, rise := 0, fall := fallmarkReset }).drive t false

end Sys2Proof.Machine
end

