-- ==== Sys2Proof/Machine/ClockEngine.lean ====
section
/-! DEFINITION. The meanings of RISE, FALL, TICK, RSTA and RSTR: R125 to R134. -/

namespace Sys2Proof.Machine

/-- Edge and tick processing is suspended while `HOLD == 1` (R130). -/
def unlessHeld (f : State → State) (s : State) : State := if s.hold then s else f s

/-- Step 2 of RISE: the dispatch by mode, on the state `DIV_rise` left (R125, R132). -/
def riseDispatch (s : State) : State :=
  match s.mode with
  | .swing => if s.div.pos = 0 then timerRise .swg s else s.setOutCmb true
  | .divideAndCount => if (cntRise s).gate then (cntRise s).setOutCmb true else cntRise s
  | .divideAndDelay => if s.div.out then timerRise .swg (timerRise .dly s) else timerRise .dly s
  | .disabled => s

/-- The dispatch of FALL by mode, before `DIV_fall` (R126, R132). -/
def fallDispatch (s : State) : State :=
  match s.mode with
  | .swing => if s.div.pos = 0 then timerFall .swg s else s.setOutCmb false
  | .divideAndCount => (cntFall s).setOutCmb false
  | .divideAndDelay => if s.div.out then timerFall .swg (timerFall .dly s) else timerFall .dly s
  | .disabled => s

/-- RISE (R125). -/
def execRise (s : State) : Host.Outcome State Fault Refusal :=
  .next (unlessHeld (fun s => riseDispatch (divRise s)) s)

/-- FALL (R126): the mode's part first, `DIV_fall` last. -/
def execFall (s : State) : Host.Outcome State Fault Refusal :=
  .next (unlessHeld (fun s => divFall (fallDispatch s)) s)

/-- TICK (R127): both timers, in every mode. -/
def execTick (s : State) : Host.Outcome State Fault Refusal :=
  .next (unlessHeld (fun s => timerClock .swg (timerClock .dly s)) s)

/-- RSTA (R128), whatever `HOLD` is. -/
def execRsta (s : State) : Host.Outcome State Fault Refusal :=
  .next ((timerReset .swg (timerReset .dly (cntReset (divReset s)))).setHold true)

/-- RSTR (R129). -/
def execRstr (s : State) : Host.Outcome State Fault Refusal :=
  .next (s.setHold false)

end Sys2Proof.Machine
end

