-- ==== Sys2Proof/Machine/ConfigOps.lean ====
section
/-! DEFINITION. The meanings of SETDIV, SETCNT, SETDLY and SETSWG: R150 to R156. Each writes one `val` register, whole,
whatever `HOLD` is. A modulus above 16 is no operation (R59): the decoder never gives one, and `exec` on such a term
writes it as it stands (DESIGN CHOICE, log entry 5). -/

namespace Sys2Proof.Machine

/-- SETDIV v (R150). -/
def execSetdiv (v : Count) (s : State) : Host.Outcome State Fault Refusal :=
  .next (s.setCounter .div { s.counter .div with val := v })

/-- SETCNT v (R151). -/
def execSetcnt (v : Count) (s : State) : Host.Outcome State Fault Refusal :=
  .next (s.setCounter .cnt { s.counter .cnt with val := v })

/-- SETDLY v (R152). -/
def execSetdly (v : Ticks) (s : State) : Host.Outcome State Fault Refusal :=
  .next (s.setTimer .dly { s.timer .dly with val := v })

/-- SETSWG v (R153). -/
def execSetswg (v : Ticks) (s : State) : Host.Outcome State Fault Refusal :=
  .next (s.setTimer .swg { s.timer .swg with val := v })

end Sys2Proof.Machine
end

