-- ==== Sys2Proof/Machine/ModeSelector.lean ====
section
/-! DEFINITION. The meaning of MSEL: R116 to R120. -/

namespace Sys2Proof.Machine

/-- MSEL a, b (R116): writes `MODE` only, whatever `HOLD` is; no clean-up (R119) and no blocking (R120). -/
def execMsel (a b : Level) (s : State) : Host.Outcome State Fault Refusal :=
  .next (s.setMode (modeOfInputs a b))

end Sys2Proof.Machine
end

