-- ==== Sys2Proof/Machine/Dispatch.lean ====
section
/-! DEFINITION. One arm per operation of spec/opcode_table.json. -/

namespace Sys2Proof.Machine

/-- One operation, run to completion (R41). -/
def exec (i : Instr) (s : State) : Host.Outcome State Fault Refusal :=
  match i with
  | .rise => Sys2Proof.Machine.execRise s
  | .fall => Sys2Proof.Machine.execFall s
  | .tick => Sys2Proof.Machine.execTick s
  | .rsta => Sys2Proof.Machine.execRsta s
  | .rstr => Sys2Proof.Machine.execRstr s
  | .msel a b => Sys2Proof.Machine.execMsel a b s
  | .setdiv v => Sys2Proof.Machine.execSetdiv v s
  | .setcnt v => Sys2Proof.Machine.execSetcnt v s
  | .setdly v => Sys2Proof.Machine.execSetdly v s
  | .setswg v => Sys2Proof.Machine.execSetswg v s

end Sys2Proof.Machine
end

