-- ==== Sys2Proof/Machine/Step.lean ====
section
/-! DEFINITION. One step: take the next event word, decode it, run it. -/

namespace Sys2Proof.Machine

/-- One step of the block (R6, R41, R58): the next event word is consumed and run; a reserved word is refused (R59);
with no word presented the block waits and nothing changes (log entry 2). -/
def step (s : State) : Host.Outcome State Fault Refusal :=
  match s.fetch with
  | none => .next s
  | some (w, s') =>
    match decode w with
    | .ok i => exec i s'
    | .error r => .refused (.reservedWord r)

/-- `s` with the table word `w` as the next event word of the stream. Bits above bit 19 make it no event word: the
all-zero word, which is reserved (R59), then stands for it and the step refuses (log entry 10). -/
def State.withFetchWord (s : State) (nbits w : Nat) : State := s.present ((tableWord nbits w).getD 0)

end Sys2Proof.Machine
end

