-- ==== Sys2Proof/Machine/Binding.lean ====
section
/-! DEFINITION. The line binding of a physical build (R58): which operations two successive samples of the input ports
present, in the fixed order of R165. It stands outside the block, and no rule of the block reads it; the step takes any
stream in any order, so a statement about every state covers every interleaving (R44, R165; log entry 9). -/

namespace Sys2Proof.Machine

/-- One sample of the input ports of R58. -/
structure Ports where
  clk : Level
  rst : Level
  tick : Level
  ma : Level
  mb : Level
  divv : Count
  cntv : Count
  dlyv : Ticks
  deriving DecidableEq, Repr

/-- `ops` if the condition holds of the two samples, else nothing. -/
def presentIf (c : Bool) (ops : List Instr) : List Instr := if c then ops else []

/-- The operations that a change from sample `p` to sample `q` presents (R58), highest priority first (R165);
`polled` says that the foreground loop's polling cycle falls on this sample. -/
def Ports.presents (p q : Ports) (polled : Bool) : List Instr :=
  List.flatten
    [ presentIf (!p.rst && q.rst) [.rsta],
      presentIf (p.rst && !q.rst) [.rstr],
      presentIf (!p.clk && q.clk) [.rise],
      presentIf (p.clk && !q.clk) [.fall],
      presentIf (!p.tick && q.tick) [.tick],
      presentIf polled [.msel q.ma q.mb],
      presentIf (p.divv != q.divv) [.setdiv q.divv],
      presentIf (p.cntv != q.cntv) [.setcnt q.cntv],
      presentIf (p.dlyv != q.dlyv) [.setdly q.dlyv, .setswg q.dlyv] ]

/-- The rank of an operation in the order of R165, highest priority first. -/
def arbiterRank : Instr → Nat
  | .rsta => 0
  | .rstr => 1
  | .rise => 2
  | .fall => 2
  | .tick => 3
  | .msel _ _ => 4
  | .setdiv _ => 5
  | .setcnt _ => 6
  | .setdly _ => 7
  | .setswg _ => 8

end Sys2Proof.Machine
end

