-- ==== Sys2Proof/Machine/Stream.lean ====
section
/-! DEFINITION. Streams of operations: running a list of them in order (R44), the pseudo-operations and the assembler text
of R57. -/

namespace Sys2Proof.Machine

/-- Run the operations of a list one after another, each seeing the whole effect of those before it (R44). -/
def execAll : List Instr → State → Host.Outcome State Fault Refusal
  | [], s => .next s
  | i :: rest, s =>
    match exec i s with
    | .next t => execAll rest t
    | .fault r => .fault r
    | .refused r => .refused r

/-- `TICKS n`. -/
def Pseudo.ticks (n : Nat) : List Instr := List.replicate n .tick

/-- `PULSE h, l`: one input clock cycle. -/
def Pseudo.pulse (h l : Nat) : List Instr := .rise :: Pseudo.ticks h ++ .fall :: Pseudo.ticks l

/-- `EDGES n`: n clock cycles with no tick. -/
def Pseudo.edges : Nat → List Instr
  | 0 => []
  | n + 1 => .rise :: .fall :: Pseudo.edges n

/-- `RESET`. -/
def Pseudo.reset : List Instr := [.rsta, .rstr]

/-- `SETDELAY v`: one delay for both timers. -/
def Pseudo.setdelay (v : Ticks) : List Instr := [.setdly v, .setswg v]

/-- `MODE DELAY`. -/
def Pseudo.modeDelay : List Instr := [.msel true false]

/-- `MODE COUNT`. -/
def Pseudo.modeCount : List Instr := [.msel false true]

/-- `MODE SWING`. -/
def Pseudo.modeSwing : List Instr := [.msel false false]

/-- An operation in the text syntax of R57. -/
def asmText : Instr → String
  | .rise => "RISE"
  | .fall => "FALL"
  | .tick => "TICK"
  | .rsta => "RSTA"
  | .rstr => "RSTR"
  | .msel a b => "MSEL " ++ toString a.toNat ++ ", " ++ toString b.toNat
  | .setdiv v => "SETDIV " ++ toString v.toNat
  | .setcnt v => "SETCNT " ++ toString v.toNat
  | .setdly v => "SETDLY " ++ toString v.toNat
  | .setswg v => "SETSWG " ++ toString v.toNat

end Sys2Proof.Machine
end

