-- ==== Sys2Proof/Safety.lean ====
section
/-! DEFINITION. What holds of every state the block can reach (R28), in the terms statements use. -/

namespace Sys2Proof.Machine

/-- `DIV.val <= 16` and `CNT.val <= 16` (R28). -/
abbrev ModuliLegal (s : State) : Prop := s.div.val.toNat ≤ 16 ∧ s.cnt.val.toNat ≤ 16

/-- `DIV.pos <= 16` and `CNT.pos <= 15` (R28). -/
abbrev PositionsLegal (s : State) : Prop := s.div.pos.toNat ≤ 16 ∧ s.cnt.pos.toNat ≤ 15

/-- An output that is on stands at position 0 (R28). -/
abbrev OnAtBoundary (s : State) : Prop := (s.div.out = true → s.div.pos = 0) ∧ (s.cnt.out = true → s.cnt.pos = 0)

/-- While the reset line is asserted both timers are stopped (R28). -/
abbrev HeldTimersStopped (s : State) : Prop := s.hold = true → s.dly.run = false ∧ s.swg.run = false

/-- The invariants of R28 together. -/
abbrev BlockInv (s : State) : Prop := ModuliLegal s ∧ PositionsLegal s ∧ OnAtBoundary s ∧ HeldTimersStopped s

/-- The environment presents no reserved word (R59, R183). -/
abbrev CleanStream (s : State) : Prop := ∀ w ∈ s.events, (decode w).isOk = true

end Sys2Proof.Machine
end

