-- ==== Sys2Proof/Certificates/Slice0/Obligations.lean ====
section
/-! DEFINITION. The statements for the provers: what the numbered rules of spec/ say of decoding, of each operation, of the
component procedures, of the state over streams of operations, and of the line binding. -/

open Sys2Proof Sys2Proof.Machine

/-! ## Encoding -/

/-- R55, R56, R57, R61: decoding the word of a well-formed operation gives the operation back, whatever its operand. -/
def Obligations.EncodedInstructionDecodesBack : Prop :=
  ∀ i : Instr, i.WellFormed → decode (encode i) = .ok i

/-- R55, R56, R59, R61: a word that decodes is the one word of the operation it decodes to, and that operation's operand
is legal; so no two words name one operation and no operand bit is dropped. -/
def Obligations.DecodedWordIsTheOnlyWord : Prop :=
  ∀ (w : Word) (i : Instr), decode w = .ok i → i.WellFormed ∧ encode i = w

/-- R55: "a word `W` is the operation when `W & mask == match`", row by row, with the operand bits of R56 and the range
of SETDIV and SETCNT. -/
def Obligations.DecodeFollowsMatchAndMask : Prop :=
  ∀ w : Word,
    (decode w = .ok .rise ↔ w &&& 0xFFFFF#20 = 0x10000#20) ∧
    (decode w = .ok .fall ↔ w &&& 0xFFFFF#20 = 0x20000#20) ∧
    (decode w = .ok .tick ↔ w &&& 0xFFFFF#20 = 0x30000#20) ∧
    (decode w = .ok .rsta ↔ w &&& 0xFFFFF#20 = 0x40000#20) ∧
    (decode w = .ok .rstr ↔ w &&& 0xFFFFF#20 = 0x50000#20) ∧
    (∀ a b, decode w = .ok (.msel a b) ↔
      w &&& 0xFFFFC#20 = 0x60000#20 ∧ a = w.getLsbD 0 ∧ b = w.getLsbD 1) ∧
    (∀ v, decode w = .ok (.setdiv v) ↔
      w &&& 0xFFFE0#20 = 0x80000#20 ∧ v = w.setWidth 5 ∧ v.toNat ≤ 16) ∧
    (∀ v, decode w = .ok (.setcnt v) ↔
      w &&& 0xFFFE0#20 = 0x90000#20 ∧ v = w.setWidth 5 ∧ v.toNat ≤ 16) ∧
    (∀ v, decode w = .ok (.setdly v) ↔ w &&& 0xF0000#20 = 0xA0000#20 ∧ v = w.setWidth 16) ∧
    (∀ v, decode w = .ok (.setswg v) ↔ w &&& 0xF0000#20 = 0xB0000#20 ∧ v = w.setWidth 16)

/-- R59, R162: the step refuses the next word, by name, exactly when the word is reserved: an unused `op`, a must-be-zero
bit, or a SETDIV or SETCNT operand above 16. -/
def Obligations.ReservedWordIsRefused : Prop :=
  ∀ (s : State) (w : Word) (rest : List Word), s.events = w :: rest →
    let op := w.toNat / 65536
    let arg := w.toNat % 65536
    ((∃ why, step s = .refused (.reservedWord why)) ↔
      (op = 0x0 ∨ op = 0x7 ∨ op = 0xC ∨ op = 0xD ∨ op = 0xE ∨ op = 0xF) ∨
      ((1 ≤ op ∧ op ≤ 5) ∧ arg ≠ 0) ∨
      (op = 0x6 ∧ arg / 4 ≠ 0) ∨
      ((op = 0x8 ∨ op = 0x9) ∧ arg / 32 ≠ 0) ∨
      ((op = 0x8 ∨ op = 0x9) ∧ 16 < arg % 32))

/-- R61: of the 2^20 words exactly 131,115 decode to an operation and 917,461 are reserved. -/
def Obligations.DecodableWordsNumber131115 : Prop :=
  (Finset.univ.filter (fun w : Word => (decode w).isOk = true)).card = 131115 ∧
  (Finset.univ.filter (fun w : Word => (decode w).isOk = false)).card = 917461

/-- R55, R56: some words of spec/95_test_vectors.md section 2.1, written out from the encoding table. (The reasons
of the last three are the model's names, log entry 4.) -/
def Obligations.SampleWordsDecodeAsListed : Prop :=
  decode 0x10000#20 = .ok .rise ∧ decode 0x20000#20 = .ok .fall ∧ decode 0x30000#20 = .ok .tick ∧
  decode 0x40000#20 = .ok .rsta ∧ decode 0x50000#20 = .ok .rstr ∧
  decode 0x60001#20 = .ok (.msel true false) ∧ decode 0x60002#20 = .ok (.msel false true) ∧
  decode 0x80010#20 = .ok (.setdiv 16) ∧ decode 0x90003#20 = .ok (.setcnt 3) ∧
  decode 0xA00CD#20 = .ok (.setdly 205) ∧ decode 0xB0067#20 = .ok (.setswg 103) ∧
  decode 0x00000#20 = .error (.unusedOp 0x00000#20) ∧ decode 0x10001#20 = .error (.mustBeZero 0x10001#20) ∧
  decode 0x80011#20 = .error (.operandAboveMax 0x80011#20)

/-! ## The step and the stream -/

/-- R44, R58, R61: when the next event word decodes to an operation, that operation is well formed and the step is its
`exec` at the state whose stream has lost that word and nothing else. -/
def Obligations.StepRunsDecodedHead : Prop :=
  ∀ (s : State) (w : Word) (rest : List Word) (i : Instr), s.events = w :: rest → decode w = .ok i →
    i.WellFormed ∧ step s = exec i { s with events := rest }

/-- THE MODEL'S CHOICE (log entry 2): with no event word presented a step changes nothing, and this is the only stream on
which a step leaves the stream as it was. -/
def Obligations.StepWaitsOnlyOnEmptyStream : Prop :=
  ∀ s : State, (s.events = [] → step s = .next s) ∧ (∀ t, step s = .next t → t.events = s.events → s.events = [])

/-- R57, R58 with log entry 3: an operation's word placed as the next event word is what the next step runs, with the rest
of the stream kept behind it. -/
def Obligations.PlacedWordRunsFirst : Prop :=
  ∀ (s : State) (i : Instr), i.WellFormed →
    step (s.withFetchWord 24 (encode i).toNat) = exec i s ∧ decodeTableWord 24 (encode i).toNat = some i

/-- R44, R163: a stream of words is run as its operations one after another, "each operation sees the complete effect of
every earlier one and no effect of any later one": as many steps as words give what the operations give, and the words
behind them are still to come. -/
def Obligations.StreamRunsAsItsOperations : Prop :=
  ∀ (ops : List Instr) (s : State) (rest : List Word), (∀ i ∈ ops, i.WellFormed) →
    s.events = ops.map encode ++ rest →
    Sys2Proof.core.run ops.length s = execAll ops { s with events := rest }

/-- R163, R160: on a stream without reserved words every run completes, and `k` steps consume the first `k` words, each
once and in order. (Steps past its last word wait: the model's choice, log entry 2.) -/
def Obligations.CleanStreamRunsToItsEnd : Prop :=
  ∀ (k : Nat) (s : State), CleanStream s →
    ∃ t : State, Sys2Proof.core.run k s = .next t ∧ t.events = s.events.drop k ∧ CleanStream t

/-- R160: "Every one of the ten operations is total: defined for every state and every legal operand, and it always
completes." -/
def Obligations.EveryOperationCompletes : Prop :=
  ∀ (i : Instr) (s : State), i.WellFormed → ∃ t, exec i s = .next t

/-- R133, R49: no operation selects which comes next: `exec` leaves the stream alone and does the same whatever
the stream is.
(Terms of SETDIV and SETCNT above 16, which are no operation, are included: the model's choice, log entry 5.) -/
def Obligations.OperationsNeitherReadNorWriteStream : Prop :=
  ∀ (i : Instr) (s t : State) (es : List Word), exec i s = .next t →
    t.events = s.events ∧ exec i { s with events := es } = .next { t with events := es }

/-! ## The engine's operations, each with its whole next state (so its frame too) -/

/-- R125, R132: RISE is word 0x10000. Held, it changes nothing. Otherwise the divider takes its modulo step and its output follows the
wrap; then by mode: Swing arms the swing timer on a wrap and else sets `OUT_CMB`; DivideAndCount steps the counter, whose
output goes to `OUT_DLY`, and sets `OUT_CMB` if both outputs are on; DivideAndDelay arms the delay timer, and on a wrap the
swing timer too; Disabled does no more. Nothing else changes. -/
def Obligations.RiseStepsDividerThenDispatches : Prop :=
  decode 0x10000#20 = .ok .rise ∧ ∀ s : State,
    (s.hold = true → exec .rise s = .next s) ∧
    (s.hold = false →
      let wrap := decide (s.div.val.toNat ≤ s.div.pos.toNat + 1)
      let cwrap := decide (s.cnt.val.toNat ≤ s.cnt.pos.toNat + 1)
      let d : EdgeCounter := { pos := if wrap then 0 else s.div.pos + 1, val := s.div.val, out := wrap }
      let c : EdgeCounter := { pos := if cwrap then 0 else s.cnt.pos + 1, val := s.cnt.val, out := cwrap }
      let dly : OneShotTimer := { s.dly with rise := s.dly.val, pos := 0, run := true }
      let swg : OneShotTimer := { s.swg with rise := s.swg.val, pos := 0, run := true }
      exec .rise s = .next
        (match s.mode with
        | .swing => if wrap then { s with div := d, swg := swg } else { s with div := d, outCmb := true }
        | .divideAndCount =>
          { s with div := d, cnt := c, outDly := cwrap, outCmb := if wrap && cwrap then true else s.outCmb }
        | .divideAndDelay => if wrap then { s with div := d, dly := dly, swg := swg } else { s with div := d, dly := dly }
        | .disabled => { s with div := d }))

/-- R126, R132: FALL is word 0x20000. Held, it changes nothing. Otherwise by mode: Swing latches the swing timer's fall mark at divider
position 0 and else clears `OUT_CMB`; DivideAndCount clears `CNT.out`, `OUT_DLY` and `OUT_CMB`; DivideAndDelay latches the
delay timer's fall mark and, with `DIV.out` on, the swing timer's. Last, `DIV.out` goes off if the next rise would wrap.
Nothing else changes. -/
def Obligations.FallDispatchesThenDividerFalls : Prop :=
  decode 0x20000#20 = .ok .fall ∧ ∀ s : State,
    (s.hold = true → exec .fall s = .next s) ∧
    (s.hold = false →
      let d : EdgeCounter := { s.div with out := s.div.out && decide (s.div.pos.toNat + 1 < s.div.val.toNat) }
      let dly : OneShotTimer := { s.dly with fall := s.dly.rise + s.dly.pos }
      let swg : OneShotTimer := { s.swg with fall := s.swg.rise + s.swg.pos }
      exec .fall s = .next
        (match s.mode with
        | .swing => if s.div.pos = 0 then { s with div := d, swg := swg } else { s with div := d, outCmb := false }
        | .divideAndCount =>
          { s with div := d, cnt := { s.cnt with out := false }, outDly := false, outCmb := false }
        | .divideAndDelay =>
          if s.div.out then { s with div := d, dly := dly, swg := swg } else { s with div := d, dly := dly }
        | .disabled => { s with div := d }))

/-- R127 with R92, R94, R96: TICK is word 0x30000. Held, it changes nothing. Otherwise each timer that runs counts one, modulo 2^16, its
line goes on past `rise` and then off past `fall`, where it stops; a timer that does not run keeps its fields and its
line. Nothing else changes, in any mode. -/
def Obligations.TickClocksBothTimers : Prop :=
  decode 0x30000#20 = .ok .tick ∧ ∀ s : State,
    (s.hold = true → exec .tick s = .next s) ∧
    (s.hold = false →
      let after (x : OneShotTimer) : OneShotTimer :=
        if x.run then { x with pos := x.pos + 1, run := decide ((x.pos + 1).toNat ≤ x.fall.toNat) } else x
      let line (x : OneShotTimer) (l : Level) : Level :=
        if x.run = false then l
        else if x.fall.toNat < (x.pos + 1).toNat then false
        else if x.rise.toNat < (x.pos + 1).toNat then true else l
      exec .tick s = .next { s with
        dly := after s.dly, outDly := line s.dly s.outDly, swg := after s.swg, outCmb := line s.swg s.outCmb })

/-- R128, R26: the two known states. Power-on is all zero with mode Disabled; RSTA, word 0x40000, in every state, keeps the four `val`
registers and `MODE`, puts `DIV.pos` at `DIV.val`, raises `HOLD` and clears the rest. -/
def Obligations.PowerOnAndResetStates : Prop :=
  State.reset =
    { div := { pos := 0, val := 0, out := false }, cnt := { pos := 0, val := 0, out := false }
      dly := { rise := 0, fall := 0, val := 0, pos := 0, run := false }
      swg := { rise := 0, fall := 0, val := 0, pos := 0, run := false }
      mode := .disabled, hold := false, outDly := false, outCmb := false, events := [] } ∧
  decode 0x40000#20 = .ok .rsta ∧
  ∀ s : State, exec .rsta s = .next
    { div := { pos := s.div.val, val := s.div.val, out := false }
      cnt := { pos := 0, val := s.cnt.val, out := false }
      dly := { rise := 0, fall := 0, val := s.dly.val, pos := 0, run := false }
      swg := { rise := 0, fall := 0, val := s.swg.val, pos := 0, run := false }
      mode := s.mode, hold := true, outDly := false, outCmb := false, events := s.events }

/-- R129: RSTR is word 0x50000; it writes `HOLD` only; not held, it changes nothing; the RISE, FALL or TICK after it does
what it does with the line not asserted. -/
def Obligations.RstrReleasesHoldOnly : Prop :=
  decode 0x50000#20 = .ok .rstr ∧ ∀ s : State,
    exec .rstr s = .next { s with hold := false } ∧
    (s.hold = false → exec .rstr s = .next s) ∧
    (∀ i ∈ [Instr.rise, Instr.fall, Instr.tick], execAll [.rstr, i] s = exec i { s with hold := false })

/-- R130: while `HOLD == 1`, RISE, FALL and TICK change no register; RSTA, RSTR, MSEL and the SETx operations do what
they do when it is 0. -/
def Obligations.HoldSuspendsEdgesAndTicksOnly : Prop :=
  ∀ s : State, s.hold = true →
    (∀ i ∈ [Instr.rise, Instr.fall, Instr.tick], exec i s = .next s) ∧
    (∀ i ∈ [Instr.rsta, Instr.rstr], exec i s = exec i { s with hold := false }) ∧
    (∀ (i : Instr) (t : State), i.WellFormed → i ∉ [Instr.rise, Instr.fall, Instr.tick, Instr.rsta, Instr.rstr] →
      exec i { s with hold := false } = .next t → exec i s = .next { t with hold := true })

/-! ## The mode and the configuration -/

/-- R116, R117: MSEL writes `MODE` only: B active selects DivideAndCount (code 2), else A active DivideAndDelay (1), else
Swing (3); the same from the four words of R117's table. -/
def Obligations.MselMapsInputsToMode : Prop :=
  (∀ (a b : Level) (s : State), exec (.msel a b) s = .next
    { s with mode := if b then .divideAndCount else if a then .divideAndDelay else .swing }) ∧
  (∀ s : State,
    step (s.present 0x60000#20) = .next { s with mode := .swing } ∧
    step (s.present 0x60001#20) = .next { s with mode := .divideAndDelay } ∧
    step (s.present 0x60002#20) = .next { s with mode := .divideAndCount } ∧
    step (s.present 0x60003#20) = .next { s with mode := .divideAndCount }) ∧
  Mode.swing.code = 3 ∧ Mode.divideAndDelay.code = 1 ∧ Mode.divideAndCount.code = 2

/-- R118: Disabled is the mode at power-on; every MSEL, taken in Disabled or in another mode, leaves a mode other than
Disabled; no other operation writes `MODE`, so Disabled stays until the first MSEL and is never entered again. -/
def Obligations.DisabledIsNeverEntered : Prop :=
  State.reset.mode = .disabled ∧
  ∀ (i : Instr) (s t : State), i.WellFormed → exec i s = .next t →
    (∀ a b, i = .msel a b → t.mode ≠ .disabled) ∧
    ((∀ a b, i ≠ .msel a b) → t.mode = s.mode) ∧
    (t.mode = .disabled → s.mode = .disabled)

/-- R150, R151: SETDIV and SETCNT with `v <= 16` write one modulus, whole, and nothing else, in every state, held or not;
the words 0x80000 + v and 0x90000 + v with `v <= 16` are these operations, and with `v` from 17 to 31 they are no operation.
(A term with `v > 16` is no operation either; what `exec` does with it is the model's choice, log entry 5, and is stated
nowhere.) -/
def Obligations.ModulusWritesChangeOneRegister : Prop :=
  (∀ (v : Count) (s : State), v.toNat ≤ 16 → exec (.setdiv v) s = .next { s with div := { s.div with val := v } }) ∧
  (∀ (v : Count) (s : State), v.toNat ≤ 16 → exec (.setcnt v) s = .next { s with cnt := { s.cnt with val := v } }) ∧
  (∀ (n : Nat) (s : State), n ≤ 16 →
    step (s.present (BitVec.ofNat 20 (0x80000 + n))) = .next { s with div := { s.div with val := BitVec.ofNat 5 n } } ∧
    step (s.present (BitVec.ofNat 20 (0x90000 + n))) = .next { s with cnt := { s.cnt with val := BitVec.ofNat 5 n } }) ∧
  (∀ (n : Nat) (i : Instr), 17 ≤ n → n ≤ 31 →
    decode (BitVec.ofNat 20 (0x80000 + n)) ≠ .ok i ∧ decode (BitVec.ofNat 20 (0x90000 + n)) ≠ .ok i)

/-- R59, R162 with R150, R151: the step refuses the words 0x80000 + v and 0x90000 + v with `v` from 17 to 31, and the reason
is the operand. (That the refusal names this reason is the model's choice, log entry 4.) -/
def Obligations.ModulusAboveMaxIsRefused : Prop :=
  ∀ (n : Nat) (s : State), 17 ≤ n → n ≤ 31 →
    step (s.present (BitVec.ofNat 20 (0x80000 + n))) =
      .refused (.reservedWord (.operandAboveMax (BitVec.ofNat 20 (0x80000 + n)))) ∧
    step (s.present (BitVec.ofNat 20 (0x90000 + n))) =
      .refused (.reservedWord (.operandAboveMax (BitVec.ofNat 20 (0x90000 + n))))

/-- R152, R153: SETDLY and SETSWG write one delay, whole, and nothing else, in every state, held or not, a running timer
included; and the words 0xA0000 + v and 0xB0000 + v with any 16-bit `v` are these operations. -/
def Obligations.DelayWritesChangeOneRegister : Prop :=
  (∀ (v : Ticks) (s : State), exec (.setdly v) s = .next { s with dly := { s.dly with val := v } }) ∧
  (∀ (v : Ticks) (s : State), exec (.setswg v) s = .next { s with swg := { s.swg with val := v } }) ∧
  (∀ (n : Nat) (s : State), n ≤ 65535 →
    step (s.present (BitVec.ofNat 20 (0xA0000 + n))) = .next { s with dly := { s.dly with val := BitVec.ofNat 16 n } } ∧
    step (s.present (BitVec.ofNat 20 (0xB0000 + n))) = .next { s with swg := { s.swg with val := BitVec.ofNat 16 n } })

/-- R43: every configuration operation is idempotent, and writing the value a register holds changes nothing.
(Terms of SETDIV and SETCNT above 16, which are no operation, are included: the model's choice, log entry 5.) -/
def Obligations.ConfigurationIsIdempotent : Prop :=
  (∀ (i : Instr) (s t : State), i ∉ [Instr.rise, Instr.fall, Instr.tick, Instr.rsta, Instr.rstr] →
    exec i s = .next t → exec i t = .next t) ∧
  (∀ s : State, exec (.setdiv s.div.val) s = .next s ∧ exec (.setcnt s.cnt.val) s = .next s ∧
    exec (.setdly s.dly.val) s = .next s ∧ exec (.setswg s.swg.val) s = .next s)

/-! ## Frames and what reads what -/

/-- R134: what each engine operation leaves untouched. -/
def Obligations.EngineOperationsFrame : Prop :=
  ∀ (i : Instr) (s t : State), exec i s = .next t →
    (i ∈ [Instr.rise, Instr.fall, Instr.tick] →
      t.div.val = s.div.val ∧ t.cnt.val = s.cnt.val ∧ t.dly.val = s.dly.val ∧ t.swg.val = s.swg.val ∧
      t.mode = s.mode ∧ t.hold = s.hold) ∧
    (i = .rise → t.dly.fall = s.dly.fall ∧ t.swg.fall = s.swg.fall) ∧
    (i = .fall →
      t.div.pos = s.div.pos ∧ t.cnt.pos = s.cnt.pos ∧
      t.dly.pos = s.dly.pos ∧ t.dly.rise = s.dly.rise ∧ t.dly.run = s.dly.run ∧
      t.swg.pos = s.swg.pos ∧ t.swg.rise = s.swg.rise ∧ t.swg.run = s.swg.run) ∧
    (i = .tick →
      t.dly.rise = s.dly.rise ∧ t.dly.fall = s.dly.fall ∧ t.swg.rise = s.swg.rise ∧ t.swg.fall = s.swg.fall ∧
      t.div = s.div ∧ t.cnt = s.cnt) ∧
    (i = .rsta →
      t.div.val = s.div.val ∧ t.cnt.val = s.cnt.val ∧ t.dly.val = s.dly.val ∧ t.swg.val = s.swg.val ∧
      t.mode = s.mode) ∧
    (i = .rstr → t = { s with hold := t.hold })

/-- R47, R166: the `val` registers and `MODE` are written only by the configuration operations, and these write nothing
else.
(Terms of SETDIV and SETCNT above 16, which are no operation, are included: the model's choice, log entry 5.) -/
def Obligations.WritersOwnTheirRegisters : Prop :=
  ∀ (i : Instr) (s t : State), exec i s = .next t →
    if i ∈ [Instr.rise, Instr.fall, Instr.tick, Instr.rsta, Instr.rstr] then
      t.div.val = s.div.val ∧ t.cnt.val = s.cnt.val ∧ t.dly.val = s.dly.val ∧ t.swg.val = s.swg.val ∧ t.mode = s.mode
    else
      t = { s with
        div := { s.div with val := t.div.val }, cnt := { s.cnt with val := t.cnt.val }
        dly := { s.dly with val := t.dly.val }, swg := { s.swg with val := t.swg.val }, mode := t.mode }

/-- R21: `OUT_DLY` and `OUT_CMB` are written but never read: with any other levels `a`, `b` on them before an operation,
every register is the same after it, and each line either keeps its level (`a`, `b`) or gets the level it got before.
(Terms of SETDIV and SETCNT above 16, which are no operation, are included: the model's choice, log entry 5.) -/
def Obligations.OutputLinesAreNeverRead : Prop :=
  ∀ (i : Instr) (s t : State) (a b : Level), exec i s = .next t →
    ∃ a' b' : Level, (a' = a ∨ a' = t.outDly) ∧ (b' = b ∨ b' = t.outCmb) ∧
      exec i { s with outDly := a, outCmb := b } = .next { t with outDly := a', outCmb := b' }

/-- R100, R46: the timers' `val` registers are read by RISE only, so a parameter change does not reach a running timer:
every operation but RISE and the two that write them does the same whatever they hold.
(Terms of SETDIV and SETCNT above 16, which are no operation, are included: the model's choice, log entry 5.) -/
def Obligations.DelayValuesAreReadAtArmingOnly : Prop :=
  ∀ (i : Instr) (s t : State) (v u : Ticks), i ≠ .rise → (∀ x, i ≠ .setdly x) → (∀ x, i ≠ .setswg x) →
    exec i s = .next t →
    exec i { s with dly := { s.dly with val := v }, swg := { s.swg with val := u } } =
      .next { t with dly := { t.dly with val := v }, swg := { t.swg with val := u } }

/-- R115, R119: the mode selects the arm of RISE and FALL and nothing else: every other operation but MSEL does the same
in every mode and keeps it.
(Terms of SETDIV and SETCNT above 16, which are no operation, are included: the model's choice, log entry 5.) -/
def Obligations.OnlyEdgesReadTheMode : Prop :=
  ∀ (i : Instr) (s t : State) (m : Mode), i ≠ .rise → i ≠ .fall → (∀ a b, i ≠ .msel a b) →
    exec i s = .next t → exec i { s with mode := m } = .next { t with mode := m }

/-- R18: every write of `CNT.out` writes the same level to `OUT_DLY`. The operations that write `CNT.out` are RSTA and,
not held and in DivideAndCount, RISE and FALL (a write of the level it has included, as at R72); after each of them the
two levels are equal, and every other operation keeps `CNT.out`.
(Terms of SETDIV and SETCNT above 16, which are no operation, are included: the model's choice, log entry 5.) -/
def Obligations.DelayLineFollowsCounterOutput : Prop :=
  ∀ (i : Instr) (s t : State), exec i s = .next t →
    if i = .rsta ∨ ((i = .rise ∨ i = .fall) ∧ s.hold = false ∧ s.mode = .divideAndCount) then t.outDly = t.cnt.out
    else t.cnt.out = s.cnt.out

/-- R20: the line ownership of the modes: an edge writes `OUT_DLY` and the counter only in DivideAndCount, `OUT_CMB`
only in Swing and DivideAndCount, and the timers only in DivideAndDelay and, the swing timer, Swing. -/
def Obligations.EdgesWriteTheirModesLinesOnly : Prop :=
  ∀ (i : Instr) (s t : State), (i = .rise ∨ i = .fall) → exec i s = .next t →
    (s.mode ≠ .divideAndCount → t.outDly = s.outDly ∧ t.cnt = s.cnt) ∧
    (s.mode = .disabled ∨ s.mode = .divideAndDelay → t.outCmb = s.outCmb) ∧
    (s.mode ≠ .divideAndDelay → t.dly = s.dly) ∧
    (s.mode = .disabled ∨ s.mode = .divideAndCount → t.swg = s.swg)

/-! ## The EdgeCounters -/

/-- R70: `EC_next` wraps exactly when `pos + 1 >= val`, then puts `pos` at 0, and else counts one; it writes `pos` of its
own component only. -/
def Obligations.EcNextWrapsAtModulus : Prop :=
  ∀ (c : CounterName) (s : State),
    let x := s.counter c
    ((ecNext c s).2 = true ↔ x.val.toNat ≤ x.pos.toNat + 1) ∧
    (ecNext c s).1 = s.setCounter c { x with pos := if x.val.toNat ≤ x.pos.toNat + 1 then 0 else x.pos + 1 }

/-- R79: with a constant modulus `N >= 1`, from position 0 the wraps are calls N, 2N, 3N, ..., from position N they are
calls 1, N + 1, 2N + 1, ...; after any call the position is below N. Call `k + 1` is the one after `k` calls. -/
def Obligations.EcNextWrapPeriod : Prop :=
  ∀ (c : CounterName) (s : State) (N k : Nat), 1 ≤ N → (s.counter c).val.toNat = N →
    let after := (fun s => (ecNext c s).1)^[k] s
    ((s.counter c).pos = 0 → ((ecNext c after).2 = true ↔ N ∣ k + 1)) ∧
    ((s.counter c).pos.toNat = N → ((ecNext c after).2 = true ↔ N ∣ k)) ∧
    ((ecNext c after).1.counter c).pos.toNat < N

/-- R77: a modulus of 0 or 1 is transparent: the rising edge asserts on and the falling edge off, with `pos` at 0, for the
divider in every mode and for the counter, with its line, in DivideAndCount. -/
def Obligations.DegenerateModulusCopiesInput : Prop :=
  ∀ s : State, s.hold = false →
    ∃ t u, exec .rise s = .next t ∧ exec .fall t = .next u ∧
      (s.div.val.toNat ≤ 1 → t.div.out = true ∧ t.div.pos = 0 ∧ u.div.out = false ∧ u.div.pos = 0) ∧
      (s.mode = .divideAndCount → s.cnt.val.toNat ≤ 1 →
        t.cnt.out = true ∧ t.outDly = true ∧ t.cnt.pos = 0 ∧ u.cnt.out = false ∧ u.outDly = false ∧ u.cnt.pos = 0)

/-- R76, R182, R195: the first rising edge after RSTA wraps the divider in every mode; with a SETDIV during the hold it
wraps exactly when the new modulus is at most the old one plus 1, because `DIV.pos` keeps the old one. -/
def Obligations.FirstRiseAfterResetWraps : Prop :=
  ∀ (s : State) (v : Count), v.toNat ≤ 16 →
    (∃ t, execAll [.rsta, .rstr, .rise] s = .next t ∧ t.div.out = true ∧ t.div.pos = 0) ∧
    (∃ t, execAll [.rsta, .setdiv v, .rstr, .rise] s = .next t ∧ t.div.val = v ∧
      t.div.out = decide (v.toNat ≤ s.div.val.toNat + 1))

/-- R80: the divider's waveform in every mode, from the position after a reset, for every modulus N: after `r` clock cycles
the next rising edge turns `OUT_DIV` on exactly when N divides `r` (always for `N <= 1`), and the falling edge that
ends cycle `r` leaves it on exactly when `N >= 2` and cycle `r` began with a wrap. -/
def Obligations.DividerWaveform : Prop :=
  ∀ (s : State) (r : Nat), s.hold = false → s.div.pos = s.div.val →
    ∃ t u, execAll (Pseudo.edges r) s = .next t ∧ exec .rise t = .next u ∧
      (u.outputs.div = true ↔ s.div.val.toNat ≤ 1 ∨ s.div.val.toNat ∣ r) ∧
      (1 ≤ r → (t.outputs.div = true ↔ 2 ≤ s.div.val.toNat ∧ s.div.val.toNat ∣ r - 1))

/-- R81: the counter's waveform in DivideAndCount from position 0, for every modulus N: after `r` clock cycles the next
rising edge turns `CNT.out` and `OUT_DLY` on exactly when N is 0 or divides `r + 1`, and its falling edge turns them and
`OUT_CMB` off. -/
def Obligations.CounterWaveform : Prop :=
  ∀ (s : State) (r : Nat), s.hold = false → s.mode = .divideAndCount → s.cnt.pos = 0 →
    ∃ t u v, execAll (Pseudo.edges r) s = .next t ∧ exec .rise t = .next u ∧ exec .fall u = .next v ∧
      (u.cnt.out = true ↔ s.cnt.val.toNat = 0 ∨ s.cnt.val.toNat ∣ r + 1) ∧ u.outputs.dly = u.cnt.out ∧
      v.cnt.out = false ∧ v.outputs.dly = false ∧ v.outputs.cmb = false

/-! ## The OneShotTimers -/

/-- R98, for both timers: armed with `val = V`, `h` ticks to the falling edge, `fall_old >= h`: through tick `V` the line
keeps its level, it is on after ticks `V + 1` to `V + h` and off from tick `V + h + 1`, where the timer stops; `rise = V`
and `fall = V + h`. R98 asks `V + h < 65536`; at 65535 R187 says that the timer never stops, so `V + h < 65535` here
(log entry 12). -/
def Obligations.TimerDelaysPulseByValPlusOne : Prop :=
  ∀ (t : TimerName) (s : State) (h n : Nat),
    let V := (s.timer t).val.toNat
    h ≤ (s.timer t).fall.toNat → V + h < 65535 →
    let before := (timerClock t)^[h] (timerRise t s)
    let after := (timerClock t)^[n] (timerFall t before)
    (∀ k ≤ h, let mid := (timerClock t)^[k] (timerRise t s)
      mid.line t = (if k ≤ V then s.line t else true) ∧ (mid.timer t).run = true ∧ (mid.timer t).pos.toNat = k) ∧
    (after.timer t).rise.toNat = V ∧ (after.timer t).fall.toNat = V + h ∧
    after.line t = (if h + n ≤ V then s.line t else decide (h + n ≤ V + h)) ∧
    (after.timer t).run = decide (h + n ≤ V + h)

/-- R97, R186: a running timer at `pos <= fall`, `fall < 0xFFFF`, left to its ticks, runs exactly while `pos <= fall`, stops
with `pos` frozen at `fall + 1` and its line off, and keeps its fall mark. -/
def Obligations.RunningTimerStopsPastFallMark : Prop :=
  ∀ (t : TimerName) (s : State) (n : Nat), (s.timer t).run = true →
    (s.timer t).pos.toNat ≤ (s.timer t).fall.toNat → (s.timer t).fall.toNat < 65535 →
    let after := (timerClock t)^[n] s
    (after.timer t).run = decide ((s.timer t).pos.toNat + n ≤ (s.timer t).fall.toNat) ∧
    (after.timer t).pos.toNat = min ((s.timer t).pos.toNat + n) ((s.timer t).fall.toNat + 1) ∧
    (after.timer t).fall = (s.timer t).fall ∧
    ((s.timer t).fall.toNat < (s.timer t).pos.toNat + n → after.line t = false)

/-- R187: with `fall == 0xFFFF` a running timer never stops, its `pos` goes round modulo 2^16, and every tick with
`pos > rise` writes "on". -/
def Obligations.TimerWithFullFallMarkNeverStops : Prop :=
  ∀ (t : TimerName) (s : State) (n : Nat), (s.timer t).run = true → (s.timer t).fall = 0xFFFF#16 →
    let after := (timerClock t)^[n] s
    (after.timer t).run = true ∧ (after.timer t).fall = 0xFFFF#16 ∧ (after.timer t).rise = (s.timer t).rise ∧
    (after.timer t).pos.toNat = ((s.timer t).pos.toNat + n) % 65536 ∧
    (1 ≤ n → (after.timer t).rise.toNat < (after.timer t).pos.toNat → after.line t = true)

/-- R188: the first arming after a reset is cut short: after RSTA, RSTR, RISE in DivideAndDelay, any number of ticks from
one on leaves both timers stopped at `pos == 1` with both lines off, and the FALL after them latches `fall = val + 1`. -/
def Obligations.FirstArmingAfterResetIsCutShort : Prop :=
  ∀ (s : State) (n : Nat), s.mode = .divideAndDelay → 1 ≤ n →
    ∃ t u, execAll ([.rsta, .rstr, .rise] ++ Pseudo.ticks n) s = .next t ∧ exec .fall t = .next u ∧
      t.dly.run = false ∧ t.dly.pos = 1 ∧ t.outputs.dly = false ∧
      t.swg.run = false ∧ t.swg.pos = 1 ∧ t.outputs.cmb = false ∧
      u.dly.fall = s.dly.val + 1 ∧ u.swg.fall = s.swg.val + 1

/-- R184: the three regimes of the delay timer in DivideAndDelay under a regular input of high time `h` and low time `l`
ticks, once the fall mark has settled at `V + h`, after any number `m >= 1` of input cycles: with `V + h + 1 <= h + l` the
line is off and the timer stopped; with `V + 1 <= h + l < V + h + 1` the line is on and the timer runs; with
`h + l <= V` the line was never written and the timer runs. (`V + h < 65535` keeps R187's case out.) -/
def Obligations.RetriggerRegimes : Prop :=
  ∀ (s : State) (h l m : Nat),
    let V := s.dly.val.toNat
    s.hold = false → s.mode = .divideAndDelay → s.dly.fall.toNat = V + h → V + h < 65535 → 1 ≤ m →
    ∃ t, execAll (List.replicate m (Pseudo.pulse h l)).flatten s = .next t ∧ t.dly.fall.toNat = V + h ∧
      (V + h + 1 ≤ h + l → t.outputs.dly = false ∧ t.dly.run = false) ∧
      (V + 1 ≤ h + l ∧ h + l < V + h + 1 → t.outputs.dly = true ∧ t.dly.run = true) ∧
      (h + l ≤ V → t.outputs.dly = s.outputs.dly ∧ t.dly.run = true)

/-- R114, R111: mode Swing. On a wrap cycle with `fall_old >= h`, `OUT_CMB` keeps its level through tick `S`, is on after
ticks `S + 1` to `S + h` and off from tick `S + h + 1` (`S = SWG.val`; `S + h < 65535`, log entry 12). On another cycle,
with the swing timer stopped, it copies the input. -/
def Obligations.SwingDelaysWrapCyclesOnly : Prop :=
  ∀ (s : State) (h n : Nat), s.hold = false → s.mode = .swing →
    let S := s.swg.val.toNat
    (s.div.val.toNat ≤ s.div.pos.toNat + 1 → h ≤ s.swg.fall.toNat → S + h < 65535 →
      ∃ t, execAll (.rise :: Pseudo.ticks h ++ .fall :: Pseudo.ticks n) s = .next t ∧
        t.outputs.cmb = (if h + n ≤ S then s.outputs.cmb else decide (h + n ≤ S + h))) ∧
    (s.div.pos.toNat + 1 < s.div.val.toNat → s.swg.run = false →
      ∃ t u, execAll (.rise :: Pseudo.ticks h) s = .next t ∧ t.outputs.cmb = true ∧
        execAll (.fall :: Pseudo.ticks n) t = .next u ∧ u.outputs.cmb = false ∧ u.swg = s.swg)

/-! ## Streams: power-on, coincident events -/

/-- R181: from power-on with no configuration written, whatever edges and ticks came before, a RISE and any ticks after it
leave `OUT_DIV` on, a FALL and any ticks after it leave it off, and nothing else ever differs from power-on. -/
def Obligations.UnconfiguredBlockCopiesClock : Prop :=
  ∀ (ops : List Instr) (n : Nat), (∀ i ∈ ops, i = .rise ∨ i = .fall ∨ i = .tick) →
    execAll (ops ++ .rise :: Pseudo.ticks n) State.reset =
      .next { State.reset with div := { pos := 0, val := 0, out := true } } ∧
    execAll (ops ++ .fall :: Pseudo.ticks n) State.reset = .next State.reset

/-- R167, R194 with R98, for both timers: armed with its line off and `val = V`, `h >= 1` ticks to the falling edge and
`fall_old >= h`, a timer first turns its line on at tick `V + 1`; for every tick rate, and wherever in a tick period the
arming edge fell, that tick comes between `V` and `V + 1` tick periods after the edge in real time. (With `h = 0` the line
never goes on. That both ends of the phase are taken in is the model's choice, log entry 6; `V + h < 65535` is log
entry 12.) -/
def Obligations.DelayedEdgeFallsWithinOneTickPeriod : Prop :=
  ∀ (t : TimerName) (s : State) (h : Nat),
    let V := (s.timer t).val.toNat
    s.line t = false → h ≤ (s.timer t).fall.toNat → V + h < 65535 →
    (h = 0 → ∀ k, (timerPulse t h k s).line t = false) ∧
    (1 ≤ h → ∃ k, (timerPulse t h k s).line t = true ∧ (∀ j < k, (timerPulse t h j s).line t = false) ∧ k = V + 1 ∧
      ∀ (rate : Config.TickRate) (phase : Config.TickPhase),
        Config.seconds rate V ≤ Config.tickSeconds rate phase k ∧
        Config.tickSeconds rate phase k ≤ Config.seconds rate (V + 1))

/-- R192: an edge or a tick coincident with RSTA ends in the same state in both orders: what the RSTA alone leaves. -/
def Obligations.ResetAbsorbsCoincidentEvent : Prop :=
  ∀ (s : State), ∀ i ∈ [Instr.rise, Instr.fall, Instr.tick],
    execAll [i, .rsta] s = exec .rsta s ∧ execAll [.rsta, i] s = exec .rsta s

/-- R165: the order of a coincident FALL and TICK is observable: in DivideAndDelay with the delay timer running, the FALL
taken first latches `rise + pos`, the TICK taken first makes it latch one more. -/
def Obligations.CoincidentFallAndTickOrderShows : Prop :=
  ∀ s : State, s.hold = false → s.mode = .divideAndDelay → s.dly.run = true →
    ∃ t u, execAll [.fall, .tick] s = .next t ∧ execAll [.tick, .fall] s = .next u ∧
      t.dly.fall = s.dly.rise + s.dly.pos ∧ u.dly.fall = t.dly.fall + 1

/-- R58, R165: the line binding presents RSTA, RSTR, RISE, FALL exactly at the changes of their lines, MSEL with the sampled
levels exactly when polled, a SETx exactly when its bound integer changed (both timers' for the delay), and lists what
coincides in the fixed order, highest first. THE MODEL'S CHOICE (log entry 9): that TICK is presented exactly at the change
of its line from 0 to 1, and that the argument `polled` says whether a polling cycle falls on the sample. -/
def Obligations.BindingSerialisesCoincidentEvents : Prop :=
  ∀ (p q : Ports) (polled : Bool),
    let ops := p.presents q polled
    (.rsta ∈ ops ↔ p.rst = false ∧ q.rst = true) ∧ (.rstr ∈ ops ↔ p.rst = true ∧ q.rst = false) ∧
    (.rise ∈ ops ↔ p.clk = false ∧ q.clk = true) ∧ (.fall ∈ ops ↔ p.clk = true ∧ q.clk = false) ∧
    (.tick ∈ ops ↔ p.tick = false ∧ q.tick = true) ∧
    (∀ a b, .msel a b ∈ ops ↔ polled = true ∧ a = q.ma ∧ b = q.mb) ∧
    (∀ v, .setdiv v ∈ ops ↔ p.divv ≠ q.divv ∧ v = q.divv) ∧ (∀ v, .setcnt v ∈ ops ↔ p.cntv ≠ q.cntv ∧ v = q.cntv) ∧
    (∀ v, .setdly v ∈ ops ↔ p.dlyv ≠ q.dlyv ∧ v = q.dlyv) ∧ (∀ v, .setswg v ∈ ops ↔ p.dlyv ≠ q.dlyv ∧ v = q.dlyv) ∧
    (ops.map arbiterRank).Pairwise (· < ·)

/-! ## The invariants -/

/-- R28: every step from a state that has the invariants gives a state that has them, whatever word comes next. -/
def Obligations.StepKeepsInvariants : Prop :=
  ∀ s t : State, BlockInv s → step s = .next t → BlockInv t

/-- R28, R26: the power-on state has the invariants. -/
def Obligations.PowerOnHasInvariants : Prop := BlockInv State.reset

/-- R28: the invariants hold "in every state reachable from power-on by any sequence of operations": for every stream the
environment may present to the power-on state and every number of steps. -/
def Obligations.ReachableStatesHaveInvariants : Prop :=
  ∀ (es : List Word) (k : Nat) (t : State),
    Sys2Proof.core.run k { State.reset with events := es } = .next t → BlockInv t
end

