-- ==== Sys2Proof/Laws/State.lean ====
section
/-! SUPPORT. What each field of State reads as after each named update, and what the component reads are: true by rfl, for
simp, so that no later proof unfolds a record update. -/

namespace Sys2Proof.Machine

variable (s : State)

@[simp] theorem State.setCounter_div_div (c : EdgeCounter) : (s.setCounter .div c).div = c := rfl
@[simp] theorem State.setCounter_div_cnt (c : EdgeCounter) : (s.setCounter .div c).cnt = s.cnt := rfl
@[simp] theorem State.setCounter_div_dly (c : EdgeCounter) : (s.setCounter .div c).dly = s.dly := rfl
@[simp] theorem State.setCounter_div_swg (c : EdgeCounter) : (s.setCounter .div c).swg = s.swg := rfl
@[simp] theorem State.setCounter_div_mode (c : EdgeCounter) : (s.setCounter .div c).mode = s.mode := rfl
@[simp] theorem State.setCounter_div_hold (c : EdgeCounter) : (s.setCounter .div c).hold = s.hold := rfl
@[simp] theorem State.setCounter_div_outDly (c : EdgeCounter) : (s.setCounter .div c).outDly = s.outDly := rfl
@[simp] theorem State.setCounter_div_outCmb (c : EdgeCounter) : (s.setCounter .div c).outCmb = s.outCmb := rfl
@[simp] theorem State.setCounter_div_events (c : EdgeCounter) : (s.setCounter .div c).events = s.events := rfl

@[simp] theorem State.setCounter_cnt_div (c : EdgeCounter) : (s.setCounter .cnt c).div = s.div := rfl
@[simp] theorem State.setCounter_cnt_cnt (c : EdgeCounter) : (s.setCounter .cnt c).cnt = c := rfl
@[simp] theorem State.setCounter_cnt_dly (c : EdgeCounter) : (s.setCounter .cnt c).dly = s.dly := rfl
@[simp] theorem State.setCounter_cnt_swg (c : EdgeCounter) : (s.setCounter .cnt c).swg = s.swg := rfl
@[simp] theorem State.setCounter_cnt_mode (c : EdgeCounter) : (s.setCounter .cnt c).mode = s.mode := rfl
@[simp] theorem State.setCounter_cnt_hold (c : EdgeCounter) : (s.setCounter .cnt c).hold = s.hold := rfl
@[simp] theorem State.setCounter_cnt_outDly (c : EdgeCounter) : (s.setCounter .cnt c).outDly = s.outDly := rfl
@[simp] theorem State.setCounter_cnt_outCmb (c : EdgeCounter) : (s.setCounter .cnt c).outCmb = s.outCmb := rfl
@[simp] theorem State.setCounter_cnt_events (c : EdgeCounter) : (s.setCounter .cnt c).events = s.events := rfl

@[simp] theorem State.setTimer_dly_div (x : OneShotTimer) : (s.setTimer .dly x).div = s.div := rfl
@[simp] theorem State.setTimer_dly_cnt (x : OneShotTimer) : (s.setTimer .dly x).cnt = s.cnt := rfl
@[simp] theorem State.setTimer_dly_dly (x : OneShotTimer) : (s.setTimer .dly x).dly = x := rfl
@[simp] theorem State.setTimer_dly_swg (x : OneShotTimer) : (s.setTimer .dly x).swg = s.swg := rfl
@[simp] theorem State.setTimer_dly_mode (x : OneShotTimer) : (s.setTimer .dly x).mode = s.mode := rfl
@[simp] theorem State.setTimer_dly_hold (x : OneShotTimer) : (s.setTimer .dly x).hold = s.hold := rfl
@[simp] theorem State.setTimer_dly_outDly (x : OneShotTimer) : (s.setTimer .dly x).outDly = s.outDly := rfl
@[simp] theorem State.setTimer_dly_outCmb (x : OneShotTimer) : (s.setTimer .dly x).outCmb = s.outCmb := rfl
@[simp] theorem State.setTimer_dly_events (x : OneShotTimer) : (s.setTimer .dly x).events = s.events := rfl

@[simp] theorem State.setTimer_swg_div (x : OneShotTimer) : (s.setTimer .swg x).div = s.div := rfl
@[simp] theorem State.setTimer_swg_cnt (x : OneShotTimer) : (s.setTimer .swg x).cnt = s.cnt := rfl
@[simp] theorem State.setTimer_swg_dly (x : OneShotTimer) : (s.setTimer .swg x).dly = s.dly := rfl
@[simp] theorem State.setTimer_swg_swg (x : OneShotTimer) : (s.setTimer .swg x).swg = x := rfl
@[simp] theorem State.setTimer_swg_mode (x : OneShotTimer) : (s.setTimer .swg x).mode = s.mode := rfl
@[simp] theorem State.setTimer_swg_hold (x : OneShotTimer) : (s.setTimer .swg x).hold = s.hold := rfl
@[simp] theorem State.setTimer_swg_outDly (x : OneShotTimer) : (s.setTimer .swg x).outDly = s.outDly := rfl
@[simp] theorem State.setTimer_swg_outCmb (x : OneShotTimer) : (s.setTimer .swg x).outCmb = s.outCmb := rfl
@[simp] theorem State.setTimer_swg_events (x : OneShotTimer) : (s.setTimer .swg x).events = s.events := rfl

@[simp] theorem State.drive_dly_div (l : Level) : (s.drive .dly l).div = s.div := rfl
@[simp] theorem State.drive_dly_cnt (l : Level) : (s.drive .dly l).cnt = s.cnt := rfl
@[simp] theorem State.drive_dly_dly (l : Level) : (s.drive .dly l).dly = s.dly := rfl
@[simp] theorem State.drive_dly_swg (l : Level) : (s.drive .dly l).swg = s.swg := rfl
@[simp] theorem State.drive_dly_mode (l : Level) : (s.drive .dly l).mode = s.mode := rfl
@[simp] theorem State.drive_dly_hold (l : Level) : (s.drive .dly l).hold = s.hold := rfl
@[simp] theorem State.drive_dly_outDly (l : Level) : (s.drive .dly l).outDly = l := rfl
@[simp] theorem State.drive_dly_outCmb (l : Level) : (s.drive .dly l).outCmb = s.outCmb := rfl
@[simp] theorem State.drive_dly_events (l : Level) : (s.drive .dly l).events = s.events := rfl

@[simp] theorem State.drive_swg_div (l : Level) : (s.drive .swg l).div = s.div := rfl
@[simp] theorem State.drive_swg_cnt (l : Level) : (s.drive .swg l).cnt = s.cnt := rfl
@[simp] theorem State.drive_swg_dly (l : Level) : (s.drive .swg l).dly = s.dly := rfl
@[simp] theorem State.drive_swg_swg (l : Level) : (s.drive .swg l).swg = s.swg := rfl
@[simp] theorem State.drive_swg_mode (l : Level) : (s.drive .swg l).mode = s.mode := rfl
@[simp] theorem State.drive_swg_hold (l : Level) : (s.drive .swg l).hold = s.hold := rfl
@[simp] theorem State.drive_swg_outDly (l : Level) : (s.drive .swg l).outDly = s.outDly := rfl
@[simp] theorem State.drive_swg_outCmb (l : Level) : (s.drive .swg l).outCmb = l := rfl
@[simp] theorem State.drive_swg_events (l : Level) : (s.drive .swg l).events = s.events := rfl

@[simp] theorem State.setOutCmb_div (l : Level) : (s.setOutCmb l).div = s.div := rfl
@[simp] theorem State.setOutCmb_cnt (l : Level) : (s.setOutCmb l).cnt = s.cnt := rfl
@[simp] theorem State.setOutCmb_dly (l : Level) : (s.setOutCmb l).dly = s.dly := rfl
@[simp] theorem State.setOutCmb_swg (l : Level) : (s.setOutCmb l).swg = s.swg := rfl
@[simp] theorem State.setOutCmb_mode (l : Level) : (s.setOutCmb l).mode = s.mode := rfl
@[simp] theorem State.setOutCmb_hold (l : Level) : (s.setOutCmb l).hold = s.hold := rfl
@[simp] theorem State.setOutCmb_outDly (l : Level) : (s.setOutCmb l).outDly = s.outDly := rfl
@[simp] theorem State.setOutCmb_outCmb (l : Level) : (s.setOutCmb l).outCmb = l := rfl
@[simp] theorem State.setOutCmb_events (l : Level) : (s.setOutCmb l).events = s.events := rfl

@[simp] theorem State.setMode_div (m : Mode) : (s.setMode m).div = s.div := rfl
@[simp] theorem State.setMode_cnt (m : Mode) : (s.setMode m).cnt = s.cnt := rfl
@[simp] theorem State.setMode_dly (m : Mode) : (s.setMode m).dly = s.dly := rfl
@[simp] theorem State.setMode_swg (m : Mode) : (s.setMode m).swg = s.swg := rfl
@[simp] theorem State.setMode_mode (m : Mode) : (s.setMode m).mode = m := rfl
@[simp] theorem State.setMode_hold (m : Mode) : (s.setMode m).hold = s.hold := rfl
@[simp] theorem State.setMode_outDly (m : Mode) : (s.setMode m).outDly = s.outDly := rfl
@[simp] theorem State.setMode_outCmb (m : Mode) : (s.setMode m).outCmb = s.outCmb := rfl
@[simp] theorem State.setMode_events (m : Mode) : (s.setMode m).events = s.events := rfl

@[simp] theorem State.setHold_div (l : Level) : (s.setHold l).div = s.div := rfl
@[simp] theorem State.setHold_cnt (l : Level) : (s.setHold l).cnt = s.cnt := rfl
@[simp] theorem State.setHold_dly (l : Level) : (s.setHold l).dly = s.dly := rfl
@[simp] theorem State.setHold_swg (l : Level) : (s.setHold l).swg = s.swg := rfl
@[simp] theorem State.setHold_mode (l : Level) : (s.setHold l).mode = s.mode := rfl
@[simp] theorem State.setHold_hold (l : Level) : (s.setHold l).hold = l := rfl
@[simp] theorem State.setHold_outDly (l : Level) : (s.setHold l).outDly = s.outDly := rfl
@[simp] theorem State.setHold_outCmb (l : Level) : (s.setHold l).outCmb = s.outCmb := rfl
@[simp] theorem State.setHold_events (l : Level) : (s.setHold l).events = s.events := rfl

@[simp] theorem State.assertCnt_div (l : Level) : (s.assertCnt l).div = s.div := rfl
@[simp] theorem State.assertCnt_cnt (l : Level) : (s.assertCnt l).cnt = { s.cnt with out := l } := rfl
@[simp] theorem State.assertCnt_dly (l : Level) : (s.assertCnt l).dly = s.dly := rfl
@[simp] theorem State.assertCnt_swg (l : Level) : (s.assertCnt l).swg = s.swg := rfl
@[simp] theorem State.assertCnt_mode (l : Level) : (s.assertCnt l).mode = s.mode := rfl
@[simp] theorem State.assertCnt_hold (l : Level) : (s.assertCnt l).hold = s.hold := rfl
@[simp] theorem State.assertCnt_outDly (l : Level) : (s.assertCnt l).outDly = l := rfl
@[simp] theorem State.assertCnt_outCmb (l : Level) : (s.assertCnt l).outCmb = s.outCmb := rfl
@[simp] theorem State.assertCnt_events (l : Level) : (s.assertCnt l).events = s.events := rfl

@[simp] theorem State.assertDiv_div (l : Level) : (s.assertDiv l).div = { s.div with out := l } := rfl
@[simp] theorem State.assertDiv_cnt (l : Level) : (s.assertDiv l).cnt = s.cnt := rfl
@[simp] theorem State.assertDiv_dly (l : Level) : (s.assertDiv l).dly = s.dly := rfl
@[simp] theorem State.assertDiv_swg (l : Level) : (s.assertDiv l).swg = s.swg := rfl
@[simp] theorem State.assertDiv_mode (l : Level) : (s.assertDiv l).mode = s.mode := rfl
@[simp] theorem State.assertDiv_hold (l : Level) : (s.assertDiv l).hold = s.hold := rfl
@[simp] theorem State.assertDiv_outDly (l : Level) : (s.assertDiv l).outDly = s.outDly := rfl
@[simp] theorem State.assertDiv_outCmb (l : Level) : (s.assertDiv l).outCmb = s.outCmb := rfl
@[simp] theorem State.assertDiv_events (l : Level) : (s.assertDiv l).events = s.events := rfl

@[simp] theorem State.present_div (w : Word) : (s.present w).div = s.div := rfl
@[simp] theorem State.present_cnt (w : Word) : (s.present w).cnt = s.cnt := rfl
@[simp] theorem State.present_dly (w : Word) : (s.present w).dly = s.dly := rfl
@[simp] theorem State.present_swg (w : Word) : (s.present w).swg = s.swg := rfl
@[simp] theorem State.present_mode (w : Word) : (s.present w).mode = s.mode := rfl
@[simp] theorem State.present_hold (w : Word) : (s.present w).hold = s.hold := rfl
@[simp] theorem State.present_outDly (w : Word) : (s.present w).outDly = s.outDly := rfl
@[simp] theorem State.present_outCmb (w : Word) : (s.present w).outCmb = s.outCmb := rfl
@[simp] theorem State.present_events (w : Word) : (s.present w).events = w :: s.events := rfl

@[simp] theorem State.counter_div : s.counter .div = s.div := rfl
@[simp] theorem State.counter_cnt : s.counter .cnt = s.cnt := rfl
@[simp] theorem State.timer_dly : s.timer .dly = s.dly := rfl
@[simp] theorem State.line_dly : s.line .dly = s.outDly := rfl
@[simp] theorem State.timer_swg : s.timer .swg = s.swg := rfl
@[simp] theorem State.line_swg : s.line .swg = s.outCmb := rfl

/-! The same for a component that is a variable: what a timer's write and its line's write leave of each other. -/

@[simp] theorem State.timer_setTimer_same (t : TimerName) (x : OneShotTimer) : (s.setTimer t x).timer t = x := by
  cases t <;> rfl

@[simp] theorem State.line_setTimer (t u : TimerName) (x : OneShotTimer) : (s.setTimer t x).line u = s.line u := by
  cases t <;> cases u <;> rfl

@[simp] theorem State.timer_drive (t u : TimerName) (l : Level) : (s.drive t l).timer u = s.timer u := by
  cases t <;> cases u <;> rfl

@[simp] theorem State.line_drive_same (t : TimerName) (l : Level) : (s.drive t l).line t = l := by
  cases t <;> rfl

@[simp] theorem State.counter_setCounter_same (c : CounterName) (x : EdgeCounter) :
    (s.setCounter c x).counter c = x := by
  cases c <;> rfl

end Sys2Proof.Machine
end

