-- ==== Sys2Proof/Laws/Components.lean ====
section
/-! SUPPORT. One lemma per shared operation of the EdgeCounters and OneShotTimers: all that it does, as an equation over
the fields, with the comparisons on natural numbers. A proof cites these and unfolds nothing. -/

namespace Sys2Proof.Machine

theorem EdgeCounter.nextPos_toNat (c : EdgeCounter) : c.nextPos.toNat = c.pos.toNat + 1 := by
  have := c.pos.isLt
  have h1 : (1 : BitVec 6).toNat = 1 := rfl
  simp only [EdgeCounter.nextPos, BitVec.toNat_add, BitVec.toNat_setWidth, h1]
  omega

/-- The wrap test of R70 and R75 as a comparison of numbers. -/
theorem EdgeCounter.wraps_eq (c : EdgeCounter) : c.wraps = decide (c.val.toNat ≤ c.pos.toNat + 1) := by
  have := c.val.isLt
  have h : c.val.toNat % 64 = c.val.toNat := Nat.mod_eq_of_lt (by omega)
  simp only [EdgeCounter.wraps, BitVec.le_def, EdgeCounter.nextPos_toNat, BitVec.toNat_setWidth, Nat.reducePow, h]

theorem EdgeCounter.nextPos_low (c : EdgeCounter) : c.nextPos.setWidth 5 = c.pos + 1 := by
  apply BitVec.eq_of_toNat_eq
  simp [EdgeCounter.nextPos_toNat]

/-- The counter component after `EC_next` (R70). -/
def EdgeCounter.stepped (c : EdgeCounter) : EdgeCounter :=
  { c with pos := if c.val.toNat ≤ c.pos.toNat + 1 then 0 else c.pos + 1 }

/-- All that `EC_next` does (R70). -/
theorem ecNext_eq (c : CounterName) (s : State) :
    ecNext c s = (s.setCounter c (s.counter c).stepped,
      decide ((s.counter c).val.toNat ≤ (s.counter c).pos.toNat + 1)) := by
  simp only [ecNext, EdgeCounter.wraps_eq, EdgeCounter.nextPos_low, EdgeCounter.stepped, decide_eq_true_eq]
  split <;> simp_all

/-- All that `DIV_rise` does (R74). -/
theorem divRise_eq (s : State) :
    divRise s = { s with div := { s.div.stepped with out := decide (s.div.val.toNat ≤ s.div.pos.toNat + 1) } } := by
  simp only [divRise, ecNext_eq]; rfl

/-- All that `CNT_rise` does (R71). -/
theorem cntRise_eq (s : State) :
    cntRise s = { s with
      cnt := { s.cnt.stepped with out := decide (s.cnt.val.toNat ≤ s.cnt.pos.toNat + 1) }
      outDly := decide (s.cnt.val.toNat ≤ s.cnt.pos.toNat + 1) } := by
  simp only [cntRise, ecNext_eq]; rfl

/-- All that `CNT_fall` does (R72). -/
theorem cntFall_eq (s : State) : cntFall s = { s with cnt := { s.cnt with out := false }, outDly := false } := rfl

/-- All that `CNT_reset` does (R73). -/
theorem cntReset_eq (s : State) :
    cntReset s = { s with cnt := { s.cnt with pos := 0, out := false }, outDly := false } := rfl

/-- All that `DIV_fall` does (R75). -/
theorem divFall_eq (s : State) :
    divFall s = { s with div := { s.div with
      out := s.div.out && !decide (s.div.val.toNat ≤ s.div.pos.toNat + 1) } } := by
  simp only [divFall, EdgeCounter.wraps_eq]
  cases h : s.div.out <;> cases hw : decide (s.div.val.toNat ≤ s.div.pos.toNat + 1) <;>
    simp [State.assertDiv, ← h]

/-- All that `DIV_reset` does (R76). -/
theorem divReset_eq (s : State) : divReset s = { s with div := { s.div with pos := s.div.val, out := false } } := rfl

/-- A timer after `T_rise` (R90). -/
def OneShotTimer.armed (x : OneShotTimer) : OneShotTimer := { x with rise := x.val, pos := 0, run := true }

/-- All that `T_rise` does (R90, R95). -/
theorem timerRise_eq (t : TimerName) (s : State) : timerRise t s = s.setTimer t (s.timer t).armed := rfl

/-- A timer after `T_fall` (R91, R96). -/
def OneShotTimer.latched (x : OneShotTimer) : OneShotTimer := { x with fall := x.rise + x.pos }

/-- All that `T_fall` does (R91, R96). -/
theorem timerFall_eq (t : TimerName) (s : State) : timerFall t s = s.setTimer t (s.timer t).latched := by
  have h : ((((s.timer t).rise.setWidth 17 + (s.timer t).pos.setWidth 17 : BitVec 17)).setWidth 16)
      = (s.timer t).rise + (s.timer t).pos := by
    apply BitVec.eq_of_toNat_eq
    have h1 := (s.timer t).rise.isLt
    have h2 := (s.timer t).pos.isLt
    simp only [BitVec.toNat_setWidth, BitVec.toNat_add]
    omega
  simp only [timerFall, h, OneShotTimer.latched]

/-- A timer after one `T_clock` (R92, R99). -/
def OneShotTimer.clocked (x : OneShotTimer) : OneShotTimer :=
  if x.run then { x with pos := x.pos + 1, run := decide ((x.pos + 1).toNat ≤ x.fall.toNat) } else x

/-- The level of a timer's line after one `T_clock`, from its level before (R92): "off" is written last. -/
def OneShotTimer.clockedLine (x : OneShotTimer) (l : Level) : Level :=
  if x.run then
    if x.fall.toNat < (x.pos + 1).toNat then false else if x.rise.toNat < (x.pos + 1).toNat then true else l
  else l

theorem OneShotTimer.pastRise_eq (x : OneShotTimer) : x.pastRise = decide (x.rise.toNat < x.pos.toNat) := by
  simp [OneShotTimer.pastRise, BitVec.lt_def]

theorem OneShotTimer.pastFall_eq (x : OneShotTimer) : x.pastFall = decide (x.fall.toNat < x.pos.toNat) := by
  simp [OneShotTimer.pastFall, BitVec.lt_def]

/-- The "on" half of `T_clock` (R92). -/
theorem timerOn_eq (t : TimerName) (s : State) :
    timerOn t s = s.drive t (if (s.timer t).rise.toNat < (s.timer t).pos.toNat then true else s.line t) := by
  simp only [timerOn, OneShotTimer.pastRise_eq, decide_eq_true_eq]
  split
  · rfl
  · cases t <;> rfl

/-- The "off" half of `T_clock` (R92). -/
theorem timerOff_eq (t : TimerName) (s : State) :
    timerOff t s =
      (s.setTimer t { s.timer t with
        run := if (s.timer t).fall.toNat < (s.timer t).pos.toNat then false else (s.timer t).run }).drive t
      (if (s.timer t).fall.toNat < (s.timer t).pos.toNat then false else s.line t) := by
  simp only [timerOff, OneShotTimer.pastFall_eq, decide_eq_true_eq]
  split <;> cases t <;> rfl

/-- All that `T_clock` does (R92, R96, R99). -/
theorem timerClock_eq (t : TimerName) (s : State) :
    timerClock t s = (s.setTimer t (s.timer t).clocked).drive t ((s.timer t).clockedLine (s.line t)) := by
  by_cases hr : (s.timer t).run = true
  · have hle : decide (((s.timer t).pos + 1).toNat ≤ (s.timer t).fall.toNat)
        = if (s.timer t).fall.toNat < ((s.timer t).pos + 1).toNat then false else true := by
      split
      · exact decide_eq_false (by omega)
      · exact decide_eq_true (by omega)
    simp only [timerClock, OneShotTimer.clocked, OneShotTimer.clockedLine, if_pos hr, timerOff_eq, timerOn_eq, hle]
    cases t <;> simp_all [timerCount, State.setTimer, State.drive, State.timer, State.line]
  · simp only [timerClock, OneShotTimer.clocked, OneShotTimer.clockedLine, if_neg hr]
    cases t <;> rfl

/-- Up to the falling edge, a pulse is the arming and its ticks. -/
theorem timerPulse_of_le (t : TimerName) (h k : Nat) (s : State) (hk : k ≤ h) :
    timerPulse t h k s = (timerClock t)^[k] (timerRise t s) := if_pos hk

/-- Past the falling edge, a pulse is the fall mark's latching after tick `h` and the ticks left. -/
theorem timerPulse_of_gt (t : TimerName) (h k : Nat) (s : State) (hk : h < k) :
    timerPulse t h k s = (timerClock t)^[k - h] (timerFall t ((timerClock t)^[h] (timerRise t s))) :=
  if_neg (Nat.not_le.mpr hk)

/-- A timer after `T_reset` (R93). -/
def OneShotTimer.cleared (x : OneShotTimer) : OneShotTimer :=
  { x with run := false, pos := 0, rise := 0, fall := fallmarkReset }

/-- All that `T_reset` does (R93). -/
theorem timerReset_eq (t : TimerName) (s : State) :
    timerReset t s = (s.setTimer t (s.timer t).cleared).drive t false := rfl

/-- Taking the next event word: none from an empty stream, else its head, with the rest left (R44). -/
theorem fetch_eq (s : State) :
    s.fetch = match s.events with | [] => none | w :: rest => some (w, { s with events := rest }) := rfl

end Sys2Proof.Machine
end

