-- ==== Sys2Proof/Laws/PerInstr.lean ====
section
/-! SUPPORT. Facts stated of every operation, one lemma per constructor. -/

namespace Sys2Proof.Laws.OpcodeField

/-- The operation code R55 gives the mnemonic. -/
def opcode : Instr → BitVec 4
  | .rise => 0x1
  | .fall => 0x2
  | .tick => 0x3
  | .rsta => 0x4
  | .rstr => 0x5
  | .msel _ _ => 0x6
  | .setdiv _ => 0x8
  | .setcnt _ => 0x9
  | .setdly _ => 0xA
  | .setswg _ => 0xB

/-- Bits 19 to 16 of an operation's event word are its operation code (R54, R55). -/
def Statement (i : Instr) : Prop := opField (encode i) = opcode i

/-- Bits 19 to 16 of `n * 65536 + a`, for a 16-bit `a`. -/
theorem opField_ofNat (n a : Nat) (ha : a < 65536) :
    opField (BitVec.ofNat 20 (n * 65536 + a)) = BitVec.ofNat 4 n := by
  apply BitVec.eq_of_toNat_eq
  simp only [opField, BitVec.extractLsb'_toNat, BitVec.toNat_ofNat, Nat.shiftRight_eq_div_pow]
  omega

theorem rise : Statement .rise := rfl

theorem fall : Statement .fall := rfl

theorem tick : Statement .tick := rfl

theorem rsta : Statement .rsta := rfl

theorem rstr : Statement .rstr := rfl

theorem msel (a b : Level) : Statement (.msel a b) := by
  cases a <;> cases b <;> (show opField _ = _; decide)

theorem setdiv (v : Count) : Statement (.setdiv v) :=
  opField_ofNat 0x8 v.toNat (by have := v.isLt; omega)

theorem setcnt (v : Count) : Statement (.setcnt v) :=
  opField_ofNat 0x9 v.toNat (by have := v.isLt; omega)

theorem setdly (v : Ticks) : Statement (.setdly v) :=
  opField_ofNat 0xA v.toNat v.isLt

theorem setswg (v : Ticks) : Statement (.setswg v) :=
  opField_ofNat 0xB v.toNat v.isLt

end Sys2Proof.Laws.OpcodeField
end

