-- ==== Sys2Proof/Tests/Slice0.lean ====
section
/-! SUPPORT. The model's own tests. Decoding: the words of spec/95_test_vectors.md section 2.1, written out from the table
of R55. WellFormed: each check refuses an ill-formed operand. Operations: vectors V1 to V34 of section 2.8 (at most two for
an operation). Witnesses: for each statement with hypotheses, concrete values that meet them together. -/

namespace Sys2Proof.Tests

open Sys2Proof Sys2Proof.Machine

/-- A state in the order of section 0 of spec/95_test_vectors.md, with no event presented. -/
def st (div cnt : EdgeCounter) (dly swg : OneShotTimer) (mode : Mode) (hold outDly outCmb : Level) : State :=
  { div := div, cnt := cnt, dly := dly, swg := swg, mode := mode, hold := hold, outDly := outDly, outCmb := outCmb
    events := [] }

/-- A timer that a reset left, with the delay `v`. -/
def idle (v : Ticks) : OneShotTimer := ⟨0, 0, v, 0, false⟩

/-- The state after the event word `w`, if the step gives one. -/
def after (s : State) (w : Word) : Option State :=
  match step (s.present w) with
  | .next t => some t
  | .fault _ => none
  | .refused _ => none

/-- Why the step refuses the event word `w`, if it does. -/
def refusal (s : State) (w : Word) : Option Refusal :=
  match step (s.present w) with
  | .next _ => none
  | .fault _ => none
  | .refused r => some r

/-! ## Decoding: every constructor's word, from the fields `op` and `arg` of R54 and R55 -/

theorem test_decode_rise : decode 0b0001_0000000000000000#20 = .ok .rise := by decide
theorem test_decode_fall : decode 0b0010_0000000000000000#20 = .ok .fall := by decide
theorem test_decode_tick : decode 0b0011_0000000000000000#20 = .ok .tick := by decide
theorem test_decode_rsta : decode 0b0100_0000000000000000#20 = .ok .rsta := by decide
theorem test_decode_rstr : decode 0b0101_0000000000000000#20 = .ok .rstr := by decide
theorem test_decode_msel_a : decode 0b0110_00000000000000_01#20 = .ok (.msel true false) := by decide
theorem test_decode_msel_b : decode 0b0110_00000000000000_10#20 = .ok (.msel false true) := by decide
theorem test_decode_setdiv : decode 0b1000_00000000000_10000#20 = .ok (.setdiv 16) := by decide
theorem test_decode_setcnt : decode 0b1001_00000000000_00011#20 = .ok (.setcnt 3) := by decide
theorem test_decode_setdly : decode 0b1010_0000000011001101#20 = .ok (.setdly 205) := by decide
theorem test_decode_setswg : decode 0b1011_0000000001100111#20 = .ok (.setswg 103) := by decide

theorem test_encode_words :
    encode .tick = 0x30000#20 ∧ encode (.msel true true) = 0x60003#20 ∧ encode (.setdiv 8) = 0x80008#20 ∧
    encode (.setcnt 3) = 0x90003#20 ∧ encode (.setdly 65535) = 0xAFFFF#20 ∧ encode (.setswg 103) = 0xB0067#20 := by decide

theorem test_reserved_words :
    decode 0x00000#20 = .error (.unusedOp 0x00000#20) ∧ decode 0x70000#20 = .error (.unusedOp 0x70000#20) ∧
    decode 0xC0000#20 = .error (.unusedOp 0xC0000#20) ∧ decode 0xFFFFF#20 = .error (.unusedOp 0xFFFFF#20) ∧
    decode 0x10001#20 = .error (.mustBeZero 0x10001#20) ∧ decode 0x30100#20 = .error (.mustBeZero 0x30100#20) ∧
    decode 0x60004#20 = .error (.mustBeZero 0x60004#20) ∧ decode 0x80020#20 = .error (.mustBeZero 0x80020#20) ∧
    decode 0x80011#20 = .error (.operandAboveMax 0x80011#20) ∧
    decode 0x90011#20 = .error (.operandAboveMax 0x90011#20) := by decide

/-- The table's numbering: a row of 20 bits is asked for with 24, and bits above bit 19 make no event word. -/
theorem test_table_words :
    decodeTableWord 24 0xA00CD = some (.setdly 205) ∧ decodeTableWord 24 0x110000 = none ∧
    decodeTableWord 24 0x80011 = none := by decide

/-! ## WellFormed: the ill-formed operands of R59 are refused, the boundary is not -/

theorem test_wellFormed_setdiv : (Instr.setdiv 17).wellFormed = false ∧ (Instr.setdiv 16).wellFormed = true := by decide
theorem test_wellFormed_setcnt : (Instr.setcnt 31).wellFormed = false ∧ (Instr.setcnt 0).wellFormed = true := by decide

/-! ## Operations -/

/-- V10: both components wrap, the gate is on. -/
theorem test_rise_count_gate :
    after (st ⟨1, 2, false⟩ ⟨2, 3, false⟩ (idle 0) (idle 0) .divideAndCount false false false) 0x10000#20 =
      some (st ⟨0, 2, true⟩ ⟨0, 3, true⟩ (idle 0) (idle 0) .divideAndCount false true true) := by decide

/-- V33: a RISE on a running timer restarts it and writes no line. -/
theorem test_rise_retrigger :
    after (st ⟨0, 1, true⟩ ⟨0, 0, false⟩ ⟨5, 7, 5, 6, true⟩ ⟨5, 7, 5, 6, true⟩ .divideAndDelay false true true) 0x10000#20 =
      some (st ⟨0, 1, true⟩ ⟨0, 0, false⟩ ⟨5, 7, 5, 0, true⟩ ⟨5, 7, 5, 0, true⟩ .divideAndDelay false true true) := by
  decide

/-- V9: with modulus 1 the swing timer's fall mark is latched before `DIV.out` goes off. -/
theorem test_fall_delay_modulus_one :
    after (st ⟨0, 1, true⟩ ⟨0, 0, false⟩ ⟨205, 206, 205, 80, true⟩ ⟨205, 206, 205, 80, true⟩ .divideAndDelay
        false false false) 0x20000#20 =
      some (st ⟨0, 1, false⟩ ⟨0, 0, false⟩ ⟨205, 285, 205, 80, true⟩ ⟨205, 285, 205, 80, true⟩ .divideAndDelay
        false false false) := by decide

/-- V14: the falling edge clears the counter's output, its line and the combined output; the divider stays on. -/
theorem test_fall_count :
    after (st ⟨0, 2, true⟩ ⟨0, 3, true⟩ (idle 0) (idle 0) .divideAndCount false true true) 0x20000#20 =
      some (st ⟨0, 2, true⟩ ⟨0, 3, false⟩ (idle 0) (idle 0) .divideAndCount false false false) := by decide

/-- V19: both timers are clocked in mode Swing; one goes on, the other off and stops. -/
theorem test_tick_both_timers :
    after (st ⟨0, 2, true⟩ ⟨0, 0, false⟩ ⟨2, 4, 2, 2, true⟩ ⟨30, 32, 30, 32, true⟩ .swing false false true) 0x30000#20 =
      some (st ⟨0, 2, true⟩ ⟨0, 0, false⟩ ⟨2, 4, 2, 3, true⟩ ⟨30, 32, 30, 33, false⟩ .swing false true false) := by
  decide

/-- T11 of section 2.5: `pos` wraps to 0, and with `fall` at 65535 nothing is written. -/
theorem test_tick_pos_wraps :
    after (st ⟨0, 0, false⟩ ⟨0, 0, false⟩ ⟨65535, 65535, 0, 65535, true⟩ (idle 0) .disabled false false false) 0x30000#20 =
      some (st ⟨0, 0, false⟩ ⟨0, 0, false⟩ ⟨65535, 65535, 0, 0, true⟩ (idle 0) .disabled false false false) := by decide

/-- V25: RSTA from a busy state. -/
theorem test_rsta_busy :
    after (st ⟨3, 8, false⟩ ⟨2, 5, true⟩ ⟨205, 285, 205, 40, true⟩ ⟨103, 163, 103, 163, true⟩ .divideAndDelay
        false true true) 0x40000#20 =
      some (st ⟨8, 8, false⟩ ⟨0, 5, false⟩ (idle 205) (idle 103) .divideAndDelay true false false) := by decide

/-- V26: RSTA again while held, after SETDIV 3. -/
theorem test_rsta_held :
    after (st ⟨8, 3, false⟩ ⟨0, 5, false⟩ (idle 205) (idle 103) .divideAndDelay true false false) 0x40000#20 =
      some (st ⟨3, 3, false⟩ ⟨0, 5, false⟩ (idle 205) (idle 103) .divideAndDelay true false false) := by decide

/-- V27: RSTR. -/
theorem test_rstr :
    after (st ⟨8, 8, false⟩ ⟨0, 5, false⟩ (idle 205) (idle 103) .divideAndDelay true false false) 0x50000#20 =
      some (st ⟨8, 8, false⟩ ⟨0, 5, false⟩ (idle 205) (idle 103) .divideAndDelay false false false) := by decide

/-- V24: MSEL is executed during the hold. -/
theorem test_msel_held :
    after (st ⟨8, 8, false⟩ ⟨0, 3, false⟩ (idle 5) (idle 5) .divideAndDelay true false false) 0x60000#20 =
      some (st ⟨8, 8, false⟩ ⟨0, 3, false⟩ (idle 5) (idle 5) .swing true false false) := by decide

/-- Section 2.7: both inputs active select DivideAndCount. -/
theorem test_msel_both : (after State.reset 0x60003#20).map (·.mode) = some .divideAndCount := by decide

/-- V23: SETDIV during the hold does not move `DIV.pos`. -/
theorem test_setdiv_held :
    after (st ⟨8, 8, false⟩ ⟨0, 3, false⟩ (idle 5) (idle 5) .divideAndDelay true false false) 0x80003#20 =
      some (st ⟨8, 3, false⟩ ⟨0, 3, false⟩ (idle 5) (idle 5) .divideAndDelay true false false) := by decide

/-- V30: SETCNT 0. -/
theorem test_setcnt :
    after (st ⟨3, 8, false⟩ ⟨2, 5, false⟩ (idle 0) (idle 0) .divideAndCount false false false) 0x90000#20 =
      some (st ⟨3, 8, false⟩ ⟨2, 0, false⟩ (idle 0) (idle 0) .divideAndCount false false false) := by decide

/-- V31: SETDLY while the timer runs leaves `rise`. -/
theorem test_setdly_running :
    after (st ⟨0, 1, false⟩ ⟨0, 0, false⟩ ⟨205, 285, 205, 40, true⟩ (idle 0) .divideAndDelay false false false) 0xA0032#20 =
      some (st ⟨0, 1, false⟩ ⟨0, 0, false⟩ ⟨205, 285, 50, 40, true⟩ (idle 0) .divideAndDelay false false false) := by decide

/-- V32: SETSWG 65535. -/
theorem test_setswg_max :
    after (st ⟨0, 1, false⟩ ⟨0, 0, false⟩ (idle 0) (idle 0) .swing false false false) 0xBFFFF#20 =
      some (st ⟨0, 1, false⟩ ⟨0, 0, false⟩ (idle 0) (idle 65535) .swing false false false) := by decide

/-! ## Witnesses: states and operands that meet the hypotheses of the statements together -/

/-- A state in which both timers run, in DivideAndDelay. -/
def busy : State :=
  st ⟨0, 16, true⟩ ⟨15, 16, false⟩ ⟨3, 5, 3, 4, true⟩ ⟨3, 5, 3, 4, true⟩ .divideAndDelay false true true

/-- The state a reset of `busy` leaves while the line is asserted. -/
def held : State := st ⟨16, 16, false⟩ ⟨0, 16, false⟩ (idle 3) (idle 3) .divideAndDelay true false false

/-- The same in DivideAndCount, released. -/
def counting (n : Count) : State := st ⟨n, n, false⟩ ⟨0, n, false⟩ (idle 3) (idle 3) .divideAndCount false false false

theorem witness_EncodedInstructionDecodesBack :
    (Instr.setdiv 16).WellFormed ∧ (Instr.setcnt 0).WellFormed ∧ (Instr.setdly 65535).WellFormed ∧
    (Instr.msel true true).WellFormed := by decide

theorem witness_DecodedWordIsTheOnlyWord :
    decode 0x90010#20 = .ok (.setcnt 16) ∧ decode 0xB0000#20 = .ok (.setswg 0) := by decide

/-- Each case of R59 at its boundary words, and an operation's word beside each. -/
theorem witness_ReservedWordIsRefused :
    refusal busy 0x0FFFF#20 = some (.reservedWord (.unusedOp 0x0FFFF#20)) ∧
    refusal busy 0xC0000#20 = some (.reservedWord (.unusedOp 0xC0000#20)) ∧
    refusal busy 0x58000#20 = some (.reservedWord (.mustBeZero 0x58000#20)) ∧ refusal busy 0x50000#20 = none ∧
    refusal busy 0x60004#20 = some (.reservedWord (.mustBeZero 0x60004#20)) ∧ refusal busy 0x60003#20 = none ∧
    refusal busy 0x90020#20 = some (.reservedWord (.mustBeZero 0x90020#20)) ∧
    refusal busy 0x80011#20 = some (.reservedWord (.operandAboveMax 0x80011#20)) ∧ refusal busy 0x80010#20 = none ∧
    (busy.present 0x80011#20).events = 0x80011#20 :: [] := by decide

theorem witness_StepRunsDecodedHead :
    (busy.present 0x30000#20).events = 0x30000#20 :: [] ∧ decode 0x30000#20 = .ok .tick := by decide

theorem witness_StepWaitsOnlyOnEmptyStream :
    busy.events = [] ∧ step busy = .next busy ∧ busy.events = busy.events := ⟨rfl, rfl, rfl⟩

theorem witness_PlacedWordRunsFirst : (Instr.setcnt 16).WellFormed ∧ Instr.rise.WellFormed := by decide

theorem witness_StreamRunsAsItsOperations :
    (∀ i ∈ [Instr.rise, .setdiv 16], i.WellFormed) ∧
    ({ busy with events := [0x10000#20, 0x80010#20, 0x00000#20] } : State).events =
      [Instr.rise, .setdiv 16].map encode ++ [0x00000#20] := by decide

theorem witness_CleanStreamRunsToItsEnd :
    CleanStream { busy with events := [0x10000#20, 0x80010#20, 0xBFFFF#20] } ∧ CleanStream busy := by
  refine ⟨fun w hw => ?_, fun w hw => by cases hw⟩
  simp only [List.mem_cons, List.not_mem_nil, or_false] at hw
  rcases hw with rfl | rfl | rfl <;> rfl

theorem witness_EveryOperationCompletes : (Instr.setdiv 16).WellFormed ∧ (Instr.setcnt 0).WellFormed := by decide

theorem witness_OperationsNeitherReadNorWriteStream : ∃ t, exec .rise busy = .next t := ⟨_, rfl⟩

theorem witness_RiseStepsDividerThenDispatches : held.hold = true ∧ busy.hold = false := by decide

theorem witness_FallDispatchesThenDividerFalls : held.hold = true ∧ busy.hold = false := by decide

theorem witness_TickClocksBothTimers : held.hold = true ∧ busy.hold = false := by decide

theorem witness_RstrReleasesHoldOnly :
    busy.hold = false ∧ Instr.rise ∈ [Instr.rise, .fall, .tick] ∧ Instr.fall ∈ [Instr.rise, .fall, .tick] ∧
    Instr.tick ∈ [Instr.rise, .fall, .tick] := by decide

theorem witness_HoldSuspendsEdgesAndTicksOnly :
    held.hold = true ∧ Instr.rise ∈ [Instr.rise, .fall, .tick] ∧ Instr.rstr ∈ [Instr.rsta, .rstr] ∧
    (Instr.setdiv 16).WellFormed ∧ Instr.setdiv 16 ∉ [Instr.rise, .fall, .tick, .rsta, .rstr] ∧
    exec (.setdiv 16) { held with hold := false } = .next { held with hold := false } :=
  ⟨rfl, by decide, by decide, by decide, by decide, rfl⟩

/-- An MSEL taken in Disabled, and another operation that keeps Disabled. -/
theorem witness_DisabledIsNeverEntered :
    State.reset.mode = .disabled ∧
    (∃ t, exec (.msel false false) State.reset = .next t ∧ t.mode = .swing) ∧
    (∃ t, exec (.msel true false) State.reset = .next t ∧ t.mode = .divideAndDelay) ∧
    (∃ t, exec .rise State.reset = .next t ∧ t.mode = .disabled) ∧ (∀ a b, Instr.rise ≠ .msel a b) ∧
    (Instr.msel false false).WellFormed ∧ Instr.rise.WellFormed :=
  ⟨rfl, ⟨_, rfl, rfl⟩, ⟨_, rfl, rfl⟩, ⟨_, rfl, rfl⟩, nofun, rfl, rfl⟩

/-- Each clause at the ends of its range: 0 and 16 are written, 17 and 31 are no operation. -/
theorem witness_ModulusWritesChangeOneRegister :
    (16 : Count).toNat ≤ 16 ∧ (0 : Count).toNat ≤ 16 ∧ (after busy 0x80000#20).map (·.div.val) = some 0 ∧
    after busy 0x80010#20 = some busy ∧ decode 0x80011#20 ≠ .ok (.setdiv 17) ∧ decode 0x9001F#20 ≠ .ok (.setcnt 31) := by
  decide

/-- Both ends of the range from 17 to 31, for both words. -/
theorem witness_ModulusAboveMaxIsRefused :
    refusal busy 0x80011#20 = some (.reservedWord (.operandAboveMax 0x80011#20)) ∧
    refusal busy 0x8001F#20 = some (.reservedWord (.operandAboveMax 0x8001F#20)) ∧
    refusal busy 0x90011#20 = some (.reservedWord (.operandAboveMax 0x90011#20)) ∧
    refusal busy 0x9001F#20 = some (.reservedWord (.operandAboveMax 0x9001F#20)) := by decide

theorem witness_DelayWritesChangeOneRegister :
    (after busy 0xAFFFF#20).map (·.dly.val) = some 65535 ∧ (after busy 0xB0000#20).map (·.swg.val) = some 0 := by decide

theorem witness_ConfigurationIsIdempotent :
    Instr.msel true true ∉ [Instr.rise, .fall, .tick, .rsta, .rstr] ∧ ∃ t, exec (.msel true true) busy = .next t :=
  ⟨by decide, _, rfl⟩

theorem witness_EngineOperationsFrame :
    (∃ t, exec .rise busy = .next t) ∧ (∃ t, exec .fall busy = .next t) ∧ (∃ t, exec .tick busy = .next t) ∧
    (∃ t, exec .rsta busy = .next t) ∧ (∃ t, exec .rstr held = .next t) ∧
    Instr.tick ∈ [Instr.rise, .fall, .tick] := ⟨⟨_, rfl⟩, ⟨_, rfl⟩, ⟨_, rfl⟩, ⟨_, rfl⟩, ⟨_, rfl⟩, by decide⟩

theorem witness_WritersOwnTheirRegisters :
    (∃ t, exec .rsta busy = .next t) ∧ (∃ t, exec (.setdly 65535) busy = .next t) := ⟨⟨_, rfl⟩, ⟨_, rfl⟩⟩

/-- Operations that write both lines, and one that writes neither. -/
theorem witness_OutputLinesAreNeverRead :
    (∃ t, exec .fall (counting 1) = .next t) ∧ (∃ t, exec .tick busy = .next t) ∧ ∃ t, exec .rstr busy = .next t :=
  ⟨⟨_, rfl⟩, ⟨_, rfl⟩, _, rfl⟩

theorem witness_DelayValuesAreReadAtArmingOnly :
    Instr.tick ≠ .rise ∧ (∀ x, Instr.tick ≠ .setdly x) ∧ (∀ x, Instr.tick ≠ .setswg x) ∧
    ∃ t, exec .tick busy = .next t := ⟨nofun, nofun, nofun, _, rfl⟩

theorem witness_OnlyEdgesReadTheMode :
    Instr.tick ≠ .rise ∧ Instr.tick ≠ .fall ∧ (∀ a b, Instr.tick ≠ .msel a b) ∧ ∃ t, exec .tick busy = .next t :=
  ⟨nofun, nofun, nofun, _, rfl⟩

/-- A RISE that changes `CNT.out`, a FALL that writes 0 over 0 with the line at 1, an RSTA, and a TICK that writes the line
alone. -/
theorem witness_DelayLineFollowsCounterOutput :
    (∃ t, exec .rise (counting 1) = .next t ∧ t.cnt.out ≠ (counting 1).cnt.out) ∧
    (∃ t, exec .fall { counting 1 with outDly := true } = .next t ∧ t.cnt.out = (counting 1).cnt.out) ∧
    (counting 1).hold = false ∧ (counting 1).mode = .divideAndCount ∧ (∃ t, exec .rsta busy = .next t) ∧
    (∃ t, exec .tick busy = .next t) ∧ Instr.tick ≠ .rsta :=
  ⟨⟨_, rfl, by decide⟩, ⟨_, rfl, rfl⟩, rfl, rfl, ⟨_, rfl⟩, ⟨_, rfl⟩, nofun⟩

/-- The four clauses: by mode, the two first and the last two have a common state. -/
theorem witness_EdgesWriteTheirModesLinesOnly :
    (∃ t, exec .rise busy = .next t) ∧ busy.mode ≠ .divideAndCount ∧ busy.mode = .divideAndDelay ∧
    (∃ t, exec .fall (counting 1) = .next t) ∧ (counting 1).mode ≠ .divideAndDelay ∧
    (counting 1).mode = .divideAndCount := ⟨⟨_, rfl⟩, by decide, rfl, ⟨_, rfl⟩, by decide, rfl⟩

/-- Both starting positions, at the largest modulus. -/
theorem witness_EcNextWrapPeriod :
    (busy.counter .div).val.toNat = 16 ∧ (busy.counter .div).pos = 0 ∧ (held.counter .div).val.toNat = 16 ∧
    (held.counter .div).pos.toNat = 16 := by decide

/-- Modulus 0 and modulus 1, for both components. -/
theorem witness_DegenerateModulusCopiesInput :
    (counting 1).hold = false ∧ (counting 1).div.val.toNat = 1 ∧ (counting 1).mode = .divideAndCount ∧
    (counting 1).cnt.val.toNat = 1 ∧ (counting 0).hold = false ∧ (counting 0).div.val.toNat = 0 ∧
    (counting 0).mode = .divideAndCount ∧ (counting 0).cnt.val.toNat = 0 := by decide

theorem witness_FirstRiseAfterResetWraps : (16 : Count).toNat ≤ 16 := by decide

/-- Moduli 0, 1 and 16, and one cycle for the clause that asks for a cycle. -/
theorem witness_DividerWaveform :
    (counting 0).hold = false ∧ (counting 0).div.pos = (counting 0).div.val ∧ (counting 0).div.val.toNat = 0 ∧
    (counting 1).hold = false ∧ (counting 1).div.pos = (counting 1).div.val ∧ (counting 1).div.val.toNat = 1 ∧
    (counting 16).hold = false ∧ (counting 16).div.pos = (counting 16).div.val ∧ (counting 16).div.val.toNat = 16 ∧
    1 ≤ 1 := by decide

/-- Moduli 0, 1 and 16. -/
theorem witness_CounterWaveform :
    (counting 0).hold = false ∧ (counting 0).mode = .divideAndCount ∧ (counting 0).cnt.pos = 0 ∧
    (counting 0).cnt.val.toNat = 0 ∧ (counting 1).hold = false ∧ (counting 1).mode = .divideAndCount ∧
    (counting 1).cnt.pos = 0 ∧ (counting 1).cnt.val.toNat = 1 ∧ (counting 16).hold = false ∧
    (counting 16).mode = .divideAndCount ∧ (counting 16).cnt.pos = 0 ∧ (counting 16).cnt.val.toNat = 16 := by decide

/-- `h = 3` under `fall_old = 3`, with `V + h = 65534`, the largest sum. -/
theorem witness_TimerDelaysPulseByValPlusOne :
    let s := st ⟨0, 1, false⟩ ⟨0, 0, false⟩ ⟨0, 3, 65531, 0, false⟩ (idle 0) .divideAndDelay false false false
    3 ≤ (s.timer .dly).fall.toNat ∧ (s.timer .dly).val.toNat + 3 < 65535 ∧ (s.timer .dly).val.toNat + 3 = 65534 := by
  decide

/-- At `pos = fall = 65534`, the largest mark at which the timer still stops. -/
theorem witness_RunningTimerStopsPastFallMark :
    let s := st ⟨0, 1, false⟩ ⟨0, 0, false⟩ (idle 0) ⟨3, 65534, 3, 65534, true⟩ .swing false false true
    (s.timer .swg).run = true ∧ (s.timer .swg).pos.toNat ≤ (s.timer .swg).fall.toNat ∧
    (s.timer .swg).fall.toNat < 65535 ∧ (s.timer .swg).fall.toNat < (s.timer .swg).pos.toNat + 1 := by decide

theorem witness_TimerWithFullFallMarkNeverStops :
    let s := st ⟨0, 1, false⟩ ⟨0, 0, false⟩ ⟨3, 0xFFFF, 3, 9, true⟩ (idle 0) .divideAndDelay false true false
    (s.timer .dly).run = true ∧ (s.timer .dly).fall = 0xFFFF#16 ∧
    ((timerClock .dly s).timer .dly).rise.toNat < ((timerClock .dly s).timer .dly).pos.toNat := by decide

theorem witness_FirstArmingAfterResetIsCutShort : busy.mode = .divideAndDelay ∧ 1 ≤ 1 := by decide

/-- `V = 3` and `h = 2` under the settled mark 5, with `l` at each regime's boundary: 4, then 3 and 2, then 1. -/
theorem witness_RetriggerRegimes :
    let s := busy
    let V := s.dly.val.toNat
    s.hold = false ∧ s.mode = .divideAndDelay ∧ s.dly.fall.toNat = V + 2 ∧ V + 2 < 65535 ∧ 1 ≤ 1 ∧
    V + 2 + 1 ≤ 2 + 4 ∧ (V + 1 ≤ 2 + 3 ∧ 2 + 3 < V + 2 + 1) ∧ (V + 1 ≤ 2 + 2 ∧ 2 + 2 < V + 2 + 1) ∧ 2 + 1 ≤ V := by decide

/-- A wrap cycle and a pass-through cycle. -/
theorem witness_SwingDelaysWrapCyclesOnly :
    let s := st ⟨1, 2, false⟩ ⟨0, 0, false⟩ (idle 0) ⟨30, 32, 30, 33, false⟩ .swing false false false
    let u := st ⟨0, 2, true⟩ ⟨0, 0, false⟩ (idle 0) ⟨30, 32, 30, 33, false⟩ .swing false false false
    (s.hold = false ∧ s.mode = .swing ∧ s.div.val.toNat ≤ s.div.pos.toNat + 1 ∧ 32 ≤ s.swg.fall.toNat ∧
      s.swg.val.toNat + 32 < 65535) ∧
    (u.hold = false ∧ u.mode = .swing ∧ u.div.pos.toNat + 1 < u.div.val.toNat ∧ u.swg.run = false) := by decide

theorem witness_UnconfiguredBlockCopiesClock :
    ∀ i ∈ [Instr.rise, .tick, .fall], i = .rise ∨ i = .fall ∨ i = .tick := by decide

theorem witness_ResetAbsorbsCoincidentEvent : Instr.fall ∈ [Instr.rise, .fall, .tick] := by decide

theorem witness_CoincidentFallAndTickOrderShows :
    busy.hold = false ∧ busy.mode = .divideAndDelay ∧ busy.dly.run = true := by decide

/-- All inputs low and nothing bound. -/
def quiet : Ports := ⟨false, false, false, false, false, 0, 0, 0⟩

/-- All inputs high, every bound integer at the top of its range. -/
def loud : Ports := ⟨true, true, true, true, true, 16, 16, 65535⟩

/-- Each clause of BindingSerialisesCoincidentEvents: all rises at once, all falls at once (without a poll), no change. -/
theorem witness_BindingSerialisesCoincidentEvents :
    quiet.presents loud true =
      [.rsta, .rise, .tick, .msel true true, .setdiv 16, .setcnt 16, .setdly 65535, .setswg 65535] ∧
    loud.presents quiet false = [.rstr, .fall, .setdiv 0, .setcnt 0, .setdly 0, .setswg 0] ∧
    loud.presents loud false = [] ∧ loud.presents loud true = [.msel true true] := by decide

/-- `h = 0` and `h = 1` under `fall_old = 1`, the second with `V + h = 65534`, the largest sum; both ends of the phase. -/
theorem witness_DelayedEdgeFallsWithinOneTickPeriod :
    let s := st ⟨0, 1, false⟩ ⟨0, 0, false⟩ ⟨0, 1, 65533, 0, false⟩ (idle 0) .divideAndDelay false false false
    s.line .dly = false ∧ 1 ≤ (s.timer .dly).fall.toNat ∧ 0 ≤ (s.timer .dly).fall.toNat ∧
    (s.timer .dly).val.toNat + 1 = 65534 ∧ (s.timer .dly).val.toNat + 0 < 65535 := by decide

theorem witness_DelayedEdge_rate_and_phase :
    (1 : ℝ) ∈ Set.Ioi (0 : ℝ) ∧ (0 : ℝ) ∈ Set.Icc (0 : ℝ) 1 ∧ (1 : ℝ) ∈ Set.Icc (0 : ℝ) 1 := by simp

/-- The shortest pulse: `V = 1`, `h = 1`; the line is off after tick 1, on after tick 2 and off after tick 3. -/
theorem test_timerPulse :
    let s := st ⟨0, 1, false⟩ ⟨0, 0, false⟩ ⟨0, 1, 1, 0, false⟩ (idle 0) .divideAndDelay false false false
    (timerPulse .dly 1 1 s).line .dly = false ∧ (timerPulse .dly 1 2 s).line .dly = true ∧
    (timerPulse .dly 1 3 s).line .dly = false := by decide

/-- Both ends of R28's ranges: `DIV.pos` 16 under the hold, and both outputs on at position 0. -/
theorem witness_StepKeepsInvariants :
    BlockInv held ∧ BlockInv (st ⟨0, 16, true⟩ ⟨0, 16, true⟩ (idle 3) (idle 3) .divideAndCount false true true) ∧
    ∃ t, step (held.present 0x50000#20) = .next t := ⟨by decide, by decide, _, rfl⟩

theorem witness_ReachableStatesHaveInvariants :
    ∃ t, Sys2Proof.core.run 2 ({ State.reset with events := [0x80010#20, 0x40000#20] } : State) = .next t := ⟨_, rfl⟩

end Sys2Proof.Tests
end

/-! # The architectural state (spec/10_state.md): which operation writes what, and the invariants of R28

The first parts are a layer of facts about the step, the decoder and the dispatches; the obligations follow. -/

namespace Sys2Proof.Machine

/-! ## One operation as a total function -/

/-- The state an operation leaves: every operation completes (R160), so `exec` is this function under `next`. -/
def opEffect : Instr → State → State
  | .rise, s => unlessHeld (fun u => riseDispatch (divRise u)) s
  | .fall, s => unlessHeld (fun u => divFall (fallDispatch u)) s
  | .tick, s => unlessHeld (fun u => timerClock .swg (timerClock .dly u)) s
  | .rsta, s => (timerReset .swg (timerReset .dly (cntReset (divReset s)))).setHold true
  | .rstr, s => s.setHold false
  | .msel a b, s => s.setMode (modeOfInputs a b)
  | .setdiv v, s => s.setCounter .div { s.counter .div with val := v }
  | .setcnt v, s => s.setCounter .cnt { s.counter .cnt with val := v }
  | .setdly v, s => s.setTimer .dly { s.timer .dly with val := v }
  | .setswg v, s => s.setTimer .swg { s.timer .swg with val := v }

theorem exec_eq_next (i : Instr) (s : State) : exec i s = .next (opEffect i s) := by
  cases i <;> rfl

theorem exec_eq_next_iff {i : Instr} {s t : State} : exec i s = .next t ↔ opEffect i s = t := by
  rw [exec_eq_next, Host.Outcome.next.injEq]

/-- All that RSTA does (R128, the last column of R26). -/
theorem opEffect_rsta_eq (s : State) : opEffect .rsta s =
    { div := { pos := s.div.val, val := s.div.val, out := false }
      cnt := { pos := 0, val := s.cnt.val, out := false }
      dly := { rise := 0, fall := 0, val := s.dly.val, pos := 0, run := false }
      swg := { rise := 0, fall := 0, val := s.swg.val, pos := 0, run := false }
      mode := s.mode, hold := true, outDly := false, outCmb := false, events := s.events } := rfl

/-- R130: held, the edges and the tick change nothing. -/
theorem opEffect_of_held {i : Instr} {s : State} (hi : i = .rise ∨ i = .fall ∨ i = .tick) (held : s.hold = true) :
    opEffect i s = s := by
  rcases hi with rfl | rfl | rfl <;> exact if_pos held

theorem opEffect_rise_of_free {s : State} (free : s.hold = false) :
    opEffect .rise s = riseDispatch (divRise s) :=
  if_neg (Bool.eq_false_iff.mp free)

theorem opEffect_fall_of_free {s : State} (free : s.hold = false) :
    opEffect .fall s = divFall (fallDispatch s) :=
  if_neg (Bool.eq_false_iff.mp free)

theorem opEffect_tick_of_free {s : State} (free : s.hold = false) :
    opEffect .tick s = timerClock .swg (timerClock .dly s) :=
  if_neg (Bool.eq_false_iff.mp free)

/-! ## The decoder gives legal operations, the step runs them -/

theorem decodeBare_eq_ok {w : Word} {i j : Instr} : decodeBare w i = .ok j ↔ argField w = 0 ∧ i = j := by
  unfold decodeBare
  split <;> simp_all

theorem decodeMsel_eq_ok {w : Word} {j : Instr} :
    decodeMsel w = .ok j ↔ w.extractLsb' 2 14 = 0 ∧ .msel (w.getLsbD 0) (w.getLsbD 1) = j := by
  unfold decodeMsel
  split <;> simp_all

theorem decodeModulus_eq_ok {w : Word} {mk : Count → Instr} {j : Instr} :
    decodeModulus w mk = .ok j ↔
      w.extractLsb' 5 11 = 0 ∧ (w.extractLsb' 0 5).toNat ≤ Config.ecMax ∧ mk (w.extractLsb' 0 5) = j := by
  unfold decodeModulus
  split
  · split <;> simp_all
  · simp_all

/-- R59: the decoder gives no modulus above 16. -/
theorem wellFormed_of_decode {w : Word} {i : Instr} (h : decode w = .ok i) : i.WellFormed := by
  have bare {j : Instr} (hj : j.WellFormed) (hd : decodeBare w j = .ok i) : i.WellFormed :=
    (decodeBare_eq_ok.mp hd).2 ▸ hj
  unfold decode at h
  split at h
  case h_1 => exact bare rfl h
  case h_2 => exact bare rfl h
  case h_3 => exact bare rfl h
  case h_4 => exact bare rfl h
  case h_5 => exact bare rfl h
  case h_6 =>
    obtain ⟨-, rfl⟩ := decodeMsel_eq_ok.mp h
    rfl
  case h_7 =>
    obtain ⟨-, hv, rfl⟩ := decodeModulus_eq_ok.mp h
    exact decide_eq_true hv
  case h_8 =>
    obtain ⟨-, hv, rfl⟩ := decodeModulus_eq_ok.mp h
    exact decide_eq_true hv
  case h_9 =>
    cases h
    rfl
  case h_10 =>
    cases h
    rfl
  case h_11 => cases h

/-- All that a step which goes on can have done: waited on the empty stream, or consumed the head word and run the
well-formed operation it decodes to. -/
theorem step_next_cases {s t : State} (h : step s = .next t) :
    (s.events = [] ∧ t = s) ∨
    ∃ w rest i, s.events = w :: rest ∧ decode w = .ok i ∧ i.WellFormed ∧
      t = opEffect i { s with events := rest } := by
  unfold step at h
  rw [fetch_eq] at h
  cases hev : s.events with
  | nil =>
    simp only [hev, Host.Outcome.next.injEq] at h
    exact .inl ⟨rfl, h.symm⟩
  | cons w rest =>
    simp only [hev] at h
    cases hd : decode w with
    | error r =>
      simp only [hd] at h
      cases h
    | ok i =>
      simp only [hd] at h
      exact .inr ⟨w, rest, i, rfl, hd, wellFormed_of_decode hd, (exec_eq_next_iff.mp h).symm⟩

/-- A run of `k + 1` steps that goes through is one step and a run of `k` steps. -/
theorem run_succ_eq_next {M : Host.Core} {k : Nat} {s t : M.State} (h : M.run (k + 1) s = .next t) :
    ∃ u, M.step s = .next u ∧ M.run k u = .next t := by
  simp only [Host.Core.run] at h
  split at h
  case h_1 u hu => exact ⟨u, hu, h⟩
  case h_2 => cases h
  case h_3 => cases h

/-- Induction over a run: what every step keeps holds of every state a run from a good state reaches. -/
theorem run_keeps {M : Host.Core} {P : M.State → Prop} (keeps : ∀ s t, P s → M.step s = .next t → P t) (k : Nat)
    {s t : M.State} (hs : P s) (h : M.run k s = .next t) : P t := by
  induction k generalizing s with
  | zero =>
    cases h
    exact hs
  | succ k ih =>
    obtain ⟨u, hstep, hrun⟩ := run_succ_eq_next h
    exact ih (keeps s u hs hstep) hrun

/-! ## What the dispatches of RISE and FALL write -/

/-- The registers that an edge's dispatch leaves to their owners (R20): all but the lines, the counter and the timers,
and of those each one outside its modes. -/
structure DispatchFrame (s t : State) : Prop where
  div : t.div = s.div
  hold : t.hold = s.hold
  cnt : s.mode ≠ .divideAndCount → t.cnt = s.cnt
  outDly : s.mode ≠ .divideAndCount → t.outDly = s.outDly
  outCmb : s.mode = .disabled ∨ s.mode = .divideAndDelay → t.outCmb = s.outCmb
  dly : s.mode ≠ .divideAndDelay → t.dly = s.dly
  swg : s.mode = .disabled ∨ s.mode = .divideAndCount → t.swg = s.swg

theorem riseDispatch_frame (s : State) : DispatchFrame s (riseDispatch s) := by
  cases hm : s.mode <;> simp only [riseDispatch, hm, timerRise_eq, cntRise_eq]
  case disabled => constructor <;> simp
  case divideAndDelay => split <;> constructor <;> simp [hm]
  case divideAndCount => split <;> constructor <;> simp [hm]
  case swing => split <;> constructor <;> simp [hm]

theorem fallDispatch_frame (s : State) : DispatchFrame s (fallDispatch s) := by
  cases hm : s.mode <;> simp only [fallDispatch, hm, timerFall_eq, cntFall_eq]
  case disabled => constructor <;> simp
  case divideAndDelay => split <;> constructor <;> simp [hm]
  case divideAndCount => constructor <;> simp [hm]
  case swing => split <;> constructor <;> simp [hm]

/-- In DivideAndCount the rising edge steps the counter, and its line with it (R125). -/
theorem riseDispatch_counts {s : State} (hm : s.mode = .divideAndCount) :
    (riseDispatch s).cnt = (cntRise s).cnt ∧ (riseDispatch s).outDly = (cntRise s).outDly := by
  simp only [riseDispatch, hm]
  split <;> simp

/-- In DivideAndCount the falling edge clears the counter's output, and its line with it (R126). -/
theorem fallDispatch_counts {s : State} (hm : s.mode = .divideAndCount) :
    (fallDispatch s).cnt = { s.cnt with out := false } ∧ (fallDispatch s).outDly = false := by
  simp [fallDispatch, hm, cntFall_eq]

/-! ## R26 and R128: the two known states -/

/-- Settles O17: power-on and the word of RSTA by evaluation, RSTA by its equation. -/
theorem powerOnAndResetStates : Obligations.PowerOnAndResetStates :=
  ⟨rfl, rfl, fun s => by rw [exec_eq_next, opEffect_rsta_eq]⟩

/-! ## R28: the invariants -/

/-- R28 for one EdgeCounter, with `max` the largest position it may have: a legal modulus, a legal position, and an
output that is on only at position 0. -/
structure EdgeCounter.Legal (max : Nat) (c : EdgeCounter) : Prop where
  val_le : c.val.toNat ≤ 16
  pos_le : c.pos.toNat ≤ max
  pos_of_out : c.out = true → c.pos = 0

/-- R28 by component. -/
theorem blockInv_iff {s : State} : BlockInv s ↔ s.div.Legal 16 ∧ s.cnt.Legal 15 ∧ HeldTimersStopped s := by
  constructor
  · rintro ⟨⟨hdv, hcv⟩, ⟨hdp, hcp⟩, ⟨hdo, hco⟩, hheld⟩
    exact ⟨⟨hdv, hdp, hdo⟩, ⟨hcv, hcp, hco⟩, hheld⟩
  · rintro ⟨⟨hdv, hdp, hdo⟩, ⟨hcv, hcp, hco⟩, hheld⟩
    exact ⟨⟨hdv, hcv⟩, ⟨hdp, hcp⟩, ⟨hdo, hco⟩, hheld⟩

/-- After a modulo step the output is on exactly at the wrap, at position 0; without a wrap the new position is below
the modulus, so at most 15 (R70, R71, R74). -/
theorem EdgeCounter.Legal.stepped {max : Nat} {c : EdgeCounter} (h : c.Legal max) (hmax : 15 ≤ max) :
    Legal max { c.stepped with out := decide (c.val.toNat ≤ c.pos.toNat + 1) } := by
  have hv := h.val_le
  by_cases hwrap : c.val.toNat ≤ c.pos.toNat + 1
  · exact ⟨hv, by simp [EdgeCounter.stepped, hwrap], by simp [EdgeCounter.stepped, hwrap]⟩
  · have hpos : (c.pos + 1).toNat ≤ 15 := by
      have hone : (1 : Count).toNat = 1 := rfl
      rw [BitVec.toNat_add, hone]
      omega
    exact ⟨hv, by simpa [EdgeCounter.stepped, hwrap] using hpos.trans hmax, by simp [hwrap]⟩

/-- Turning an output off, or keeping it, keeps the component legal (R72, R75). -/
theorem EdgeCounter.Legal.setOut {max : Nat} {c : EdgeCounter} {l : Level} (h : c.Legal max)
    (hl : l = true → c.out = true) : Legal max { c with out := l } :=
  ⟨h.val_le, h.pos_le, fun hout => h.pos_of_out (hl hout)⟩

theorem EdgeCounter.Legal.setVal {max : Nat} {c : EdgeCounter} {v : Count} (h : c.Legal max) (hv : v.toNat ≤ 16) :
    Legal max { c with val := v } :=
  ⟨hv, h.pos_le, h.pos_of_out⟩

/-- With the reset line not asserted nothing is asked of the timers. -/
theorem heldTimersStopped_of_free {s : State} (h : s.hold = false) : HeldTimersStopped s :=
  fun hheld => absurd hheld (by simp [h])

/-- RISE, not held, keeps R28: the divider steps, and the counter steps or stays. -/
theorem blockInv_rise {s : State} (h : BlockInv s) (free : s.hold = false) : BlockInv (riseDispatch (divRise s)) := by
  obtain ⟨hdiv, hcnt, -⟩ := blockInv_iff.mp h
  have frame := riseDispatch_frame (divRise s)
  have hcnt' : (divRise s).cnt = s.cnt := by rw [divRise_eq]
  refine blockInv_iff.mpr ⟨?_, ?_, heldTimersStopped_of_free ?_⟩
  · rw [frame.div, divRise_eq]
    exact hdiv.stepped (by decide)
  · by_cases hm : (divRise s).mode = .divideAndCount
    · rw [(riseDispatch_counts hm).1, cntRise_eq, hcnt']
      exact hcnt.stepped le_rfl
    · rwa [frame.cnt hm, hcnt']
  · rw [frame.hold, divRise_eq, free]

/-- FALL, not held, keeps R28: outputs go off or stay, positions and moduli stay. -/
theorem blockInv_fall {s : State} (h : BlockInv s) (free : s.hold = false) : BlockInv (divFall (fallDispatch s)) := by
  obtain ⟨hdiv, hcnt, -⟩ := blockInv_iff.mp h
  have frame := fallDispatch_frame s
  rw [divFall_eq]
  refine blockInv_iff.mpr ⟨?_, ?_, heldTimersStopped_of_free (frame.hold.trans free)⟩
  · rw [frame.div]
    exact hdiv.setOut (by simp +contextual)
  · by_cases hm : s.mode = .divideAndCount
    · simp only [(fallDispatch_counts hm).1]
      exact hcnt.setOut (by simp)
    · simpa only [frame.cnt hm] using hcnt

/-- TICK, not held, keeps R28: it touches neither component nor the hold. -/
theorem blockInv_tick {s : State} (h : BlockInv s) (free : s.hold = false) :
    BlockInv (timerClock .swg (timerClock .dly s)) := by
  obtain ⟨hdiv, hcnt, -⟩ := blockInv_iff.mp h
  simp only [timerClock_eq]
  exact blockInv_iff.mpr ⟨hdiv, hcnt, heldTimersStopped_of_free free⟩

/-- RSTA establishes the hold's part of R28: it stops both timers as it raises `HOLD` (R128). -/
theorem blockInv_rsta {s : State} (h : BlockInv s) : BlockInv (opEffect .rsta s) := by
  obtain ⟨hdiv, hcnt, -⟩ := blockInv_iff.mp h
  rw [opEffect_rsta_eq]
  exact blockInv_iff.mpr
    ⟨⟨hdiv.val_le, hdiv.val_le, nofun⟩, ⟨hcnt.val_le, Nat.zero_le _, nofun⟩, fun _ => ⟨rfl, rfl⟩⟩

/-- Every well-formed operation keeps R28. -/
theorem blockInv_opEffect {i : Instr} {s : State} (wf : i.WellFormed) (h : BlockInv s) : BlockInv (opEffect i s) := by
  obtain ⟨hdiv, hcnt, hheld⟩ := blockInv_iff.mp h
  cases i with
  | rise =>
    cases hold : s.hold
    case true => rwa [opEffect_of_held (by simp) hold]
    case false => exact opEffect_rise_of_free hold ▸ blockInv_rise h hold
  | fall =>
    cases hold : s.hold
    case true => rwa [opEffect_of_held (by simp) hold]
    case false => exact opEffect_fall_of_free hold ▸ blockInv_fall h hold
  | tick =>
    cases hold : s.hold
    case true => rwa [opEffect_of_held (by simp) hold]
    case false => exact opEffect_tick_of_free hold ▸ blockInv_tick h hold
  | rsta => exact blockInv_rsta h
  | rstr => exact blockInv_iff.mpr ⟨hdiv, hcnt, heldTimersStopped_of_free rfl⟩
  | msel a b => exact h
  | setdiv v => exact blockInv_iff.mpr ⟨hdiv.setVal (of_decide_eq_true wf), hcnt, hheld⟩
  | setcnt v => exact blockInv_iff.mpr ⟨hdiv, hcnt.setVal (of_decide_eq_true wf), hheld⟩
  | setdly v => exact h
  | setswg v => exact h

/-- Settles O48: a step waits, or runs a well-formed operation on the state without its word, which R28 does not
speak of. -/
theorem stepKeepsInvariants : Obligations.StepKeepsInvariants := by
  intro s t h hstep
  obtain ⟨-, rfl⟩ | ⟨w, rest, i, -, -, wf, rfl⟩ := step_next_cases hstep
  · exact h
  · exact blockInv_opEffect wf h

/-- Settles O49: at power-on every number of R28 is 0. -/
theorem powerOnHasInvariants : Obligations.PowerOnHasInvariants :=
  blockInv_iff.mpr ⟨⟨Nat.zero_le _, Nat.zero_le _, nofun⟩, ⟨Nat.zero_le _, Nat.zero_le _, nofun⟩, nofun⟩

/-- Settles O50, by induction over the run from power-on, with O48 for each step. -/
theorem reachableStatesHaveInvariants : Obligations.ReachableStatesHaveInvariants := by
  intro es k t hrun
  have start : BlockInv { State.reset with events := es } := powerOnHasInvariants
  exact run_keeps (M := Sys2Proof.core) stepKeepsInvariants k start hrun

/-! ## R18 and R20: who writes the lines and the counter -/

/-- Settles O31: the dispatch keeps within its mode's registers, and the divider's own procedure around it writes `DIV`
only. -/
theorem edgesWriteTheirModesLinesOnly : Obligations.EdgesWriteTheirModesLinesOnly := by
  intro i s t hi hexec
  obtain rfl := exec_eq_next_iff.mp hexec
  cases hold : s.hold
  case true =>
    rw [opEffect_of_held (hi.imp_right .inl) hold]
    simp
  case false =>
    rcases hi with rfl | rfl
    · have frame := riseDispatch_frame (divRise s)
      rw [opEffect_rise_of_free hold]
      rw [divRise_eq] at frame ⊢
      exact ⟨fun hm => ⟨frame.outDly hm, frame.cnt hm⟩, frame.outCmb, frame.dly, frame.swg⟩
    · have frame := fallDispatch_frame s
      rw [opEffect_fall_of_free hold, divFall_eq]
      exact ⟨fun hm => ⟨frame.outDly hm, frame.cnt hm⟩, frame.outCmb, frame.dly, frame.swg⟩

/-- R18 for RISE, not held: in DivideAndCount the counter's level goes to the line, else `CNT.out` stays. -/
theorem rise_outDly_follows (s : State) :
    if s.mode = .divideAndCount then (riseDispatch (divRise s)).outDly = (riseDispatch (divRise s)).cnt.out
    else (riseDispatch (divRise s)).cnt.out = s.cnt.out := by
  have hmode : (divRise s).mode = s.mode := by rw [divRise_eq]
  split
  case isTrue hm =>
    obtain ⟨hcnt, hline⟩ := riseDispatch_counts (hmode.trans hm)
    rw [hcnt, hline, cntRise_eq]
  case isFalse hm =>
    rw [(riseDispatch_frame _).cnt (hmode ▸ hm), divRise_eq]

/-- R18 for FALL, not held: in DivideAndCount both levels go off, else `CNT.out` stays. -/
theorem fall_outDly_follows (s : State) :
    if s.mode = .divideAndCount then (divFall (fallDispatch s)).outDly = (divFall (fallDispatch s)).cnt.out
    else (divFall (fallDispatch s)).cnt.out = s.cnt.out := by
  rw [divFall_eq]
  split
  case isTrue hm =>
    obtain ⟨hcnt, hline⟩ := fallDispatch_counts hm
    simp only [hcnt, hline]
  case isFalse hm => simp only [(fallDispatch_frame s).cnt hm]

/-- Settles O30: the edges by the two lemmas above, RSTA by its equation; held edges, the tick and the rest do not touch
`CNT`. -/
theorem delayLineFollowsCounterOutput : Obligations.DelayLineFollowsCounterOutput := by
  intro i s t hexec
  obtain rfl := exec_eq_next_iff.mp hexec
  cases i with
  | rise =>
    cases hold : s.hold
    case true => simp [opEffect_of_held, hold]
    case false => simpa [opEffect_rise_of_free hold] using rise_outDly_follows s
  | fall =>
    cases hold : s.hold
    case true => simp [opEffect_of_held, hold]
    case false => simpa [opEffect_fall_of_free hold] using fall_outDly_follows s
  | tick =>
    cases hold : s.hold
    case true => simp [opEffect_of_held, hold]
    case false => simp [opEffect_tick_of_free hold, timerClock_eq]
  | rsta => simp [opEffect_rsta_eq]
  | rstr => simp [opEffect]
  | msel a b => simp [opEffect]
  | setdiv v => simp [opEffect]
  | setcnt v => simp [opEffect]
  | setdly v => simp [opEffect]
  | setswg v => simp [opEffect]

/-! ## R21: the output lines are written but never read -/

/-- A state with other levels on `OUT_DLY` and `OUT_CMB`. -/
def State.withLines (s : State) (a b : Level) : State := { s with outDly := a, outCmb := b }

/-- `f` never reads the output lines (R21): to each line it either writes a level that does not depend on the levels
before it (`some`), or nothing (`none`), and all else it leaves is the same under all levels. -/
def LineBlind (f : State → State) : Prop :=
  ∀ s, ∃ x y : Option Level, ∀ a b, f (s.withLines a b) = (f s).withLines (x.getD a) (y.getD b)

/-- What touches neither line is blind to them. -/
theorem LineBlind.of_commutes {f : State → State} (h : ∀ s a b, f (s.withLines a b) = (f s).withLines a b) :
    LineBlind f :=
  fun s => ⟨none, none, h s⟩

theorem LineBlind.id : LineBlind fun s => s := .of_commutes fun _ _ _ => rfl

/-- The second function's write of a line, where there is one, hides the first one's. -/
theorem LineBlind.comp {f g : State → State} (hg : LineBlind g) (hf : LineBlind f) : LineBlind fun s => g (f s) := by
  intro s
  obtain ⟨x, y, hxy⟩ := hf s
  obtain ⟨u, v, huv⟩ := hg (f s)
  refine ⟨u <|> x, v <|> y, fun a b => ?_⟩
  simp only [hxy, huv]
  cases u <;> cases v <;> rfl

/-- A test that does not read the lines chooses between blind functions. -/
theorem LineBlind.ite {p : State → Prop} [DecidablePred p] {f g : State → State}
    (hp : ∀ s a b, p (s.withLines a b) ↔ p s) (hf : LineBlind f) (hg : LineBlind g) :
    LineBlind fun s => if p s then f s else g s := by
  intro s
  by_cases h : p s
  · simpa [hp, h] using hf s
  · simpa [hp, h] using hg s

/-- What is in each mode a blind function is blind: no line takes part in the choice. -/
theorem LineBlind.byMode {f : State → State} (h : ∀ m, ∃ g, LineBlind g ∧ ∀ s : State, s.mode = m → f s = g s) :
    LineBlind f := by
  intro s
  obtain ⟨g, hg, hfg⟩ := h s.mode
  obtain ⟨x, y, hxy⟩ := hg s
  exact ⟨x, y, fun a b => by rw [hfg s rfl, hfg (s.withLines a b) rfl, hxy]⟩

theorem lineBlind_unlessHeld {f : State → State} (hf : LineBlind f) : LineBlind (unlessHeld f) :=
  .ite (p := fun s => s.hold = true) (fun _ _ _ => Iff.rfl) .id hf

theorem lineBlind_setTimer (t : TimerName) (g : OneShotTimer → OneShotTimer) :
    LineBlind fun s => s.setTimer t (g (s.timer t)) :=
  .of_commutes fun _ _ _ => by cases t <;> rfl

theorem lineBlind_drive (t : TimerName) (l : Level) : LineBlind fun s => s.drive t l := by
  intro s
  cases t with
  | dly => exact ⟨some l, none, fun _ _ => rfl⟩
  | swg => exact ⟨none, some l, fun _ _ => rfl⟩

theorem lineBlind_setOutCmb (l : Level) : LineBlind fun s => s.setOutCmb l :=
  fun _ => ⟨none, some l, fun _ _ => rfl⟩

theorem lineBlind_assertCnt (l : Level) : LineBlind fun s => s.assertCnt l :=
  fun _ => ⟨some l, none, fun _ _ => rfl⟩

theorem lineBlind_divRise : LineBlind divRise := .of_commutes fun _ _ _ => by simp only [divRise_eq]; rfl

theorem lineBlind_divFall : LineBlind divFall := .of_commutes fun _ _ _ => by simp only [divFall_eq]; rfl

theorem lineBlind_cntRise : LineBlind cntRise :=
  fun s => ⟨some (decide (s.cnt.val.toNat ≤ s.cnt.pos.toNat + 1)), none, fun _ _ => by simp only [cntRise_eq]; rfl⟩

theorem lineBlind_timerRise (t : TimerName) : LineBlind (timerRise t) := lineBlind_setTimer t .armed

theorem lineBlind_timerFall (t : TimerName) : LineBlind (timerFall t) := by
  simpa only [← timerFall_eq] using lineBlind_setTimer t .latched

theorem State.timer_withLines (s : State) (t : TimerName) (a b : Level) : (s.withLines a b).timer t = s.timer t := by
  cases t <;> rfl

/-- The two tests of R92 read the timer's marks, never its line. -/
theorem lineBlind_timerClock (t : TimerName) : LineBlind (timerClock t) := by
  have on : LineBlind (timerOn t) :=
    .ite (p := fun s => (s.timer t).pastRise = true) (by simp [State.timer_withLines]) (lineBlind_drive t true) .id
  have stop : LineBlind fun s => (s.drive t false).setTimer t { s.timer t with run := false } := by
    simpa using (lineBlind_setTimer t fun x => { x with run := false }).comp (lineBlind_drive t false)
  have off : LineBlind (timerOff t) :=
    .ite (p := fun s => (s.timer t).pastFall = true) (by simp [State.timer_withLines]) stop .id
  have count : LineBlind (timerCount t) := lineBlind_setTimer t fun x => { x with pos := x.pos + 1 }
  exact .ite (p := fun s => (s.timer t).run = true) (by simp [State.timer_withLines]) (off.comp (on.comp count)) .id

theorem lineBlind_riseDispatch : LineBlind riseDispatch := by
  refine .byMode fun m => ?_
  cases m with
  | disabled => exact ⟨_, .id, fun s hm => by simp only [riseDispatch, hm]⟩
  | divideAndDelay =>
    exact ⟨_, .ite (p := fun s => s.div.out = true) (fun _ _ _ => Iff.rfl)
      ((lineBlind_timerRise .swg).comp (lineBlind_timerRise .dly)) (lineBlind_timerRise .dly),
      fun s hm => by simp only [riseDispatch, hm]⟩
  | divideAndCount =>
    exact ⟨_, (LineBlind.ite (p := fun s => s.gate = true) (fun _ _ _ => Iff.rfl)
      (lineBlind_setOutCmb true) .id).comp lineBlind_cntRise,
      fun s hm => by simp only [riseDispatch, hm]⟩
  | swing =>
    exact ⟨_, .ite (p := fun s => s.div.pos = 0) (fun _ _ _ => Iff.rfl)
      (lineBlind_timerRise .swg) (lineBlind_setOutCmb true),
      fun s hm => by simp only [riseDispatch, hm]⟩

theorem lineBlind_fallDispatch : LineBlind fallDispatch := by
  refine .byMode fun m => ?_
  cases m with
  | disabled => exact ⟨_, .id, fun s hm => by simp only [fallDispatch, hm]⟩
  | divideAndDelay =>
    exact ⟨_, .ite (p := fun s => s.div.out = true) (fun _ _ _ => Iff.rfl)
      ((lineBlind_timerFall .swg).comp (lineBlind_timerFall .dly)) (lineBlind_timerFall .dly),
      fun s hm => by simp only [fallDispatch, hm]⟩
  | divideAndCount =>
    exact ⟨_, (lineBlind_setOutCmb false).comp (lineBlind_assertCnt false),
      fun s hm => by simp only [fallDispatch, hm, cntFall]⟩
  | swing =>
    exact ⟨_, .ite (p := fun s => s.div.pos = 0) (fun _ _ _ => Iff.rfl)
      (lineBlind_timerFall .swg) (lineBlind_setOutCmb false),
      fun s hm => by simp only [fallDispatch, hm]⟩

/-- R21 for every operation. -/
theorem lineBlind_opEffect (i : Instr) : LineBlind (opEffect i) := by
  cases i with
  | rise => exact lineBlind_unlessHeld (lineBlind_riseDispatch.comp lineBlind_divRise)
  | fall => exact lineBlind_unlessHeld (lineBlind_divFall.comp lineBlind_fallDispatch)
  | tick => exact lineBlind_unlessHeld ((lineBlind_timerClock .swg).comp (lineBlind_timerClock .dly))
  | rsta => exact fun _ => ⟨some false, some false, fun _ _ => rfl⟩
  | rstr => exact .of_commutes fun _ _ _ => rfl
  | msel a b => exact .of_commutes fun _ _ _ => rfl
  | setdiv v => exact .of_commutes fun _ _ _ => rfl
  | setcnt v => exact .of_commutes fun _ _ _ => rfl
  | setdly v => exact .of_commutes fun _ _ _ => rfl
  | setswg v => exact .of_commutes fun _ _ _ => rfl

/-- A blind function's write of a line is the level it leaves there from the state's own levels. -/
theorem LineBlind.line_writes {f : State → State} (h : LineBlind f) (s : State) (a b : Level) :
    ∃ a' b' : Level, (a' = a ∨ a' = (f s).outDly) ∧ (b' = b ∨ b' = (f s).outCmb) ∧
      f (s.withLines a b) = (f s).withLines a' b' := by
  obtain ⟨x, y, hxy⟩ := h s
  have own : f s = (f s).withLines (x.getD s.outDly) (y.getD s.outCmb) := hxy s.outDly s.outCmb
  have hdly : (f s).outDly = x.getD s.outDly := congrArg State.outDly own
  have hcmb : (f s).outCmb = y.getD s.outCmb := congrArg State.outCmb own
  refine ⟨x.getD a, y.getD b, ?_, ?_, hxy a b⟩
  · cases x with
    | none => exact .inl rfl
    | some l => exact .inr hdly.symm
  · cases y with
    | none => exact .inl rfl
    | some l => exact .inr hcmb.symm

/-- Settles O27: every operation is blind to the lines. -/
theorem outputLinesAreNeverRead : Obligations.OutputLinesAreNeverRead := by
  intro i s t a b hexec
  obtain rfl := exec_eq_next_iff.mp hexec
  obtain ⟨a', b', ha, hb, heq⟩ := (lineBlind_opEffect i).line_writes s a b
  exact ⟨a', b', ha, hb, exec_eq_next_iff.mpr heq⟩

end Sys2Proof.Machine

/-! # The stream and the configuration registers (spec/20_memory.md)

First a layer of facts about the encoder, the step and what each operation keeps; the obligations follow. -/

namespace Sys2Proof.Machine

/-! ## An operation's word decodes to it -/

/-- Bits 15 to 0 of `n * 65536 + a`, for a 16-bit `a`. -/
theorem argField_ofNat (n : Nat) (a : Ticks) : argField (BitVec.ofNat 20 (n * 65536 + a.toNat)) = a := by
  apply BitVec.eq_of_toNat_eq
  have := a.isLt
  simp only [argField, BitVec.extractLsb'_toNat, BitVec.toNat_ofNat, Nat.shiftRight_zero]
  omega

/-- R56: below the operation code, a legal modulus stands in bits 4 to 0 with zeros above it. -/
theorem decodeModulus_ofNat (n : Nat) {v : Count} (mk : Count → Instr) (hv : v.toNat ≤ Config.ecMax) :
    decodeModulus (BitVec.ofNat 20 (n * 65536 + v.toNat)) mk = .ok (mk v) := by
  have := v.isLt
  have field : (BitVec.ofNat 20 (n * 65536 + v.toNat)).extractLsb' 0 5 = v := by
    apply BitVec.eq_of_toNat_eq
    simp only [BitVec.extractLsb'_toNat, BitVec.toNat_ofNat, Nat.shiftRight_zero]
    omega
  have zeros : (BitVec.ofNat 20 (n * 65536 + v.toNat)).extractLsb' 5 11 = 0#11 := by
    apply BitVec.eq_of_toNat_eq
    simp only [BitVec.extractLsb'_toNat, BitVec.toNat_ofNat, Nat.shiftRight_eq_div_pow]
    omega
  exact decodeModulus_eq_ok.mpr ⟨zeros, by rwa [field], by rw [field]⟩

/-- R57, R61: the decoder reads an operation's own word as that operation. -/
theorem decode_encode {i : Instr} (wf : i.WellFormed) : decode (encode i) = .ok i := by
  cases i with
  | rise => rfl
  | fall => rfl
  | tick => rfl
  | rsta => rfl
  | rstr => rfl
  | msel a b => revert a b; decide
  | setdiv v =>
    have op : opField (encode (.setdiv v)) = 0x8 := Laws.OpcodeField.setdiv v
    simp only [decode, op]
    exact decodeModulus_ofNat 0x8 .setdiv (of_decide_eq_true wf)
  | setcnt v =>
    have op : opField (encode (.setcnt v)) = 0x9 := Laws.OpcodeField.setcnt v
    simp only [decode, op]
    exact decodeModulus_ofNat 0x9 .setcnt (of_decide_eq_true wf)
  | setdly v =>
    have op : opField (encode (.setdly v)) = 0xA := Laws.OpcodeField.setdly v
    simp only [decode, op]
    exact congrArg (Except.ok ∘ Instr.setdly) (argField_ofNat 0xA v)
  | setswg v =>
    have op : opField (encode (.setswg v)) = 0xB := Laws.OpcodeField.setswg v
    simp only [decode, op]
    exact congrArg (Except.ok ∘ Instr.setswg) (argField_ofNat 0xB v)

/-! ## One step, one run, one list of operations -/

/-- A step whose next word decodes consumes that word and runs its operation. -/
theorem step_of_decode {s : State} {w : Word} {rest : List Word} {i : Instr} (hev : s.events = w :: rest)
    (hd : decode w = .ok i) : step s = exec i { s with events := rest } := by
  simp only [step, fetch_eq, hev, hd]

/-- After a first step that goes through, the run goes on from its state. -/
theorem run_succ_of_step {M : Host.Core} {k : Nat} {s t : M.State} (h : M.step s = .next t) :
    M.run (k + 1) s = M.run k t := by
  simp only [Host.Core.run, h]

theorem execAll_cons (i : Instr) (ops : List Instr) (s : State) :
    execAll (i :: ops) s = execAll ops (opEffect i s) := by
  simp only [execAll, exec_eq_next]

/-! ## No operation reads or writes the stream -/

/-- A state with another stream still to come. -/
def State.withEvents (es : List Word) (s : State) : State := { s with events := es }

theorem timerClock_withEvents (t : TimerName) (es : List Word) :
    Function.Commute (timerClock t) (State.withEvents es) := by
  intro s
  simp only [timerClock_eq]
  cases t <;> rfl

theorem divRise_withEvents (es : List Word) : Function.Commute divRise (State.withEvents es) := by
  intro s
  simp only [divRise_eq]
  rfl

theorem divFall_withEvents (es : List Word) : Function.Commute divFall (State.withEvents es) := by
  intro s
  simp only [divFall_eq]
  rfl

theorem riseDispatch_withEvents (es : List Word) : Function.Commute riseDispatch (State.withEvents es) := by
  intro s
  have hmode : (s.withEvents es).mode = s.mode := rfl
  cases hm : s.mode <;> simp only [riseDispatch, hmode, hm, apply_ite (State.withEvents es)]
  case divideAndDelay => rfl
  case divideAndCount =>
    simp only [cntRise_eq]
    rfl
  case swing => rfl

theorem fallDispatch_withEvents (es : List Word) : Function.Commute fallDispatch (State.withEvents es) := by
  intro s
  have hmode : (s.withEvents es).mode = s.mode := rfl
  cases hm : s.mode <;> simp only [fallDispatch, hmode, hm, apply_ite (State.withEvents es)]
  case divideAndDelay => rfl
  case divideAndCount => rfl
  case swing => rfl

theorem unlessHeld_withEvents {f : State → State} {es : List Word} (hf : Function.Commute f (State.withEvents es)) :
    Function.Commute (unlessHeld f) (State.withEvents es) := by
  intro s
  simp only [unlessHeld, hf s, apply_ite (State.withEvents es)]
  rfl

/-- R133: an operation does the same whatever is still to come, and leaves that as it is. -/
theorem opEffect_withEvents (i : Instr) (es : List Word) : Function.Commute (opEffect i) (State.withEvents es) := by
  cases i with
  | rise => exact unlessHeld_withEvents ((riseDispatch_withEvents es).comp_left (divRise_withEvents es))
  | fall => exact unlessHeld_withEvents ((divFall_withEvents es).comp_left (fallDispatch_withEvents es))
  | tick => exact unlessHeld_withEvents ((timerClock_withEvents .swg es).comp_left (timerClock_withEvents .dly es))
  | rsta => exact fun _ => rfl
  | rstr => exact fun _ => rfl
  | msel a b => exact fun _ => rfl
  | setdiv v => exact fun _ => rfl
  | setcnt v => exact fun _ => rfl
  | setdly v => exact fun _ => rfl
  | setswg v => exact fun _ => rfl

/-! ## The configuration registers -/

/-- The registers only the configuration operations write (R47): the four `val` registers and `MODE`. -/
structure Configuration where
  div : Count
  cnt : Count
  dly : Ticks
  swg : Ticks
  mode : Mode

/-- The configuration a state holds. -/
def State.configuration (s : State) : Configuration :=
  { div := s.div.val, cnt := s.cnt.val, dly := s.dly.val, swg := s.swg.val, mode := s.mode }

theorem configuration_eq_iff {s t : State} : t.configuration = s.configuration ↔
    t.div.val = s.div.val ∧ t.cnt.val = s.cnt.val ∧ t.dly.val = s.dly.val ∧ t.swg.val = s.swg.val ∧
      t.mode = s.mode := by
  simp only [State.configuration, Configuration.mk.injEq]

@[simp] theorem configuration_divRise (s : State) : (divRise s).configuration = s.configuration := by
  rw [divRise_eq]; rfl

@[simp] theorem configuration_divFall (s : State) : (divFall s).configuration = s.configuration := by
  rw [divFall_eq]; rfl

@[simp] theorem configuration_cntRise (s : State) : (cntRise s).configuration = s.configuration := by
  rw [cntRise_eq]; rfl

@[simp] theorem configuration_cntFall (s : State) : (cntFall s).configuration = s.configuration := rfl

@[simp] theorem configuration_setOutCmb (s : State) (l : Level) :
    (s.setOutCmb l).configuration = s.configuration := rfl

@[simp] theorem configuration_timerRise (t : TimerName) (s : State) :
    (timerRise t s).configuration = s.configuration := by
  cases t <;> rfl

@[simp] theorem configuration_timerFall (t : TimerName) (s : State) :
    (timerFall t s).configuration = s.configuration := by
  cases t <;> rfl

theorem OneShotTimer.clocked_val (x : OneShotTimer) : x.clocked.val = x.val := by
  unfold OneShotTimer.clocked
  split <;> rfl

@[simp] theorem configuration_timerClock (t : TimerName) (s : State) :
    (timerClock t s).configuration = s.configuration := by
  rw [timerClock_eq]
  cases t <;> simp [State.configuration, OneShotTimer.clocked_val]

@[simp] theorem configuration_riseDispatch (s : State) : (riseDispatch s).configuration = s.configuration := by
  cases hm : s.mode <;> simp only [riseDispatch, hm]
  case divideAndDelay => split <;> simp
  case divideAndCount => split <;> simp
  case swing => split <;> simp

@[simp] theorem configuration_fallDispatch (s : State) : (fallDispatch s).configuration = s.configuration := by
  cases hm : s.mode <;> simp only [fallDispatch, hm]
  case divideAndDelay => split <;> simp
  case divideAndCount => simp
  case swing => split <;> simp

theorem configuration_unlessHeld {f : State → State} (hf : ∀ s, (f s).configuration = s.configuration) (s : State) :
    (unlessHeld f s).configuration = s.configuration := by
  unfold unlessHeld
  split
  · rfl
  · exact hf s

/-- R47, R134: the engine's operations write no configuration register. -/
theorem configuration_opEffect_of_engine {i : Instr} (hi : i ∈ [Instr.rise, .fall, .tick, .rsta, .rstr]) (s : State) :
    (opEffect i s).configuration = s.configuration := by
  simp only [List.mem_cons, List.not_mem_nil, or_false] at hi
  rcases hi with rfl | rfl | rfl | rfl | rfl
  · exact configuration_unlessHeld (by simp) s
  · exact configuration_unlessHeld (by simp) s
  · exact configuration_unlessHeld (by simp) s
  · rfl
  · rfl

/-- A state with the configuration `c`, and all its other registers kept. -/
def State.withConfiguration (s : State) (c : Configuration) : State :=
  { s with
    div := { s.div with val := c.div }, cnt := { s.cnt with val := c.cnt }
    dly := { s.dly with val := c.dly }, swg := { s.swg with val := c.swg }, mode := c.mode }

/-- What a configuration operation makes of the configuration: one register written whole (R116, R150 to R153). -/
def Configuration.written (c : Configuration) : Instr → Configuration
  | .msel a b => { c with mode := modeOfInputs a b }
  | .setdiv v => { c with div := v }
  | .setcnt v => { c with cnt := v }
  | .setdly v => { c with dly := v }
  | .setswg v => { c with swg := v }
  | _ => c

/-- R166: a configuration operation writes the configuration and nothing else. -/
theorem opEffect_of_not_engine {i : Instr} (hi : i ∉ [Instr.rise, .fall, .tick, .rsta, .rstr]) (s : State) :
    opEffect i s = s.withConfiguration (s.configuration.written i) := by
  cases i with
  | rise => simp at hi
  | fall => simp at hi
  | tick => simp at hi
  | rsta => simp at hi
  | rstr => simp at hi
  | msel a b => rfl
  | setdiv v => rfl
  | setcnt v => rfl
  | setdly v => rfl
  | setswg v => rfl

/-- A write's value does not depend on what it overwrites. -/
theorem Configuration.written_written (c : Configuration) (i : Instr) : (c.written i).written i = c.written i := by
  cases i <;> rfl

@[simp] theorem configuration_withConfiguration (s : State) (c : Configuration) :
    (s.withConfiguration c).configuration = c := rfl

@[simp] theorem withConfiguration_withConfiguration (s : State) (c d : Configuration) :
    (s.withConfiguration c).withConfiguration d = s.withConfiguration d := rfl

/-! ## The obligations -/

/-- Settles O7: the decoder gives legal operations only, and the step runs what it gives. -/
theorem stepRunsDecodedHead : Obligations.StepRunsDecodedHead :=
  fun _ _ _ _ hev hd => ⟨wellFormed_of_decode hd, step_of_decode hev hd⟩

/-- Settles O10, by induction on the operations: the first step runs the first of them, which neither sees nor changes
the stream behind it. -/
theorem streamRunsAsItsOperations : Obligations.StreamRunsAsItsOperations := by
  intro ops
  induction ops with
  | nil =>
    rintro s rest - rfl
    rfl
  | cons i ops ih =>
    intro s rest wf hev
    obtain ⟨wfHead, wfTail⟩ := List.forall_mem_cons.mp wf
    have stream (es : List Word) : opEffect i { s with events := es } = (opEffect i s).withEvents es :=
      opEffect_withEvents i es s
    have hstep : step s = .next ((opEffect i s).withEvents (ops.map encode ++ rest)) := by
      rw [← stream, ← exec_eq_next]
      exact step_of_decode hev (decode_encode wfHead)
    rw [execAll_cons, stream]
    exact (run_succ_of_step (M := Sys2Proof.core) hstep).trans (ih _ rest wfTail rfl)

/-- Settles O24: the second of two equal writes finds its own value. -/
theorem configurationIsIdempotent : Obligations.ConfigurationIsIdempotent := by
  refine ⟨fun i s t hi hexec => ?_, fun s => ⟨rfl, rfl, rfl, rfl⟩⟩
  obtain rfl := exec_eq_next_iff.mp hexec
  rw [exec_eq_next, opEffect_of_not_engine hi, opEffect_of_not_engine hi]
  simp only [configuration_withConfiguration, withConfiguration_withConfiguration, Configuration.written_written]

/-- Settles O26: the engine's operations keep the configuration, the others write it and nothing else. -/
theorem writersOwnTheirRegisters : Obligations.WritersOwnTheirRegisters := by
  intro i s t hexec
  obtain rfl := exec_eq_next_iff.mp hexec
  split
  case isTrue hi => exact configuration_eq_iff.mp (configuration_opEffect_of_engine hi s)
  case isFalse hi =>
    rw [opEffect_of_not_engine hi]
    rfl

end Sys2Proof.Machine

/-! # The encoding (spec/30_encoding.md)

First a layer of facts about the word's fields as numbers, the encoder, the decoder's refusals and the line binding;
the obligations follow. -/

namespace Sys2Proof.Machine

/-! ## The fields of a word as numbers -/

theorem opField_toNat (w : Word) : (opField w).toNat = w.toNat / 65536 := by
  simp only [opField, BitVec.extractLsb'_toNat, Nat.shiftRight_eq_div_pow]
  omega

theorem argField_toNat (w : Word) : (argField w).toNat = w.toNat % 65536 := by
  simp only [argField, BitVec.extractLsb'_toNat, Nat.shiftRight_zero]

/-- The bits `start` to `start + len - 1` of a word, as a number. -/
theorem extractLsb'_toNat_div_mod (start len : Nat) (w : Word) :
    (w.extractLsb' start len).toNat = w.toNat / 2 ^ start % 2 ^ len := by
  rw [BitVec.extractLsb'_toNat, Nat.shiftRight_eq_div_pow]

theorem extractLsb'_eq_zero_iff (start len : Nat) (w : Word) :
    w.extractLsb' start len = 0 ↔ w.toNat / 2 ^ start % 2 ^ len = 0 := by
  rw [← BitVec.toNat_inj, extractLsb'_toNat_div_mod]
  rfl

theorem toNat_getLsbD (w : Word) (n : Nat) : (w.getLsbD n).toNat = w.toNat / 2 ^ n % 2 :=
  Nat.toNat_testBit w.toNat n

/-- A word is its operation code above its operand (R54). -/
theorem ofNat_eq_of_fields {w : Word} {n a : Nat} (op : (opField w).toNat = n) (arg : (argField w).toNat = a) :
    BitVec.ofNat 20 (n * 65536 + a) = w := by
  rw [opField_toNat] at op
  rw [argField_toNat] at arg
  apply BitVec.eq_of_toNat_eq
  rw [BitVec.toNat_ofNat]
  omega

/-! ## A word that decodes is its operation's word -/

/-- R56: the two bits MSEL reads are its whole operand. -/
theorem argField_of_decodeMsel {w : Word} (zeros : w.extractLsb' 2 14 = 0) :
    (argField w).toNat = 2 * (w.getLsbD 1).toNat + (w.getLsbD 0).toNat := by
  rw [extractLsb'_eq_zero_iff] at zeros
  rw [argField_toNat, toNat_getLsbD, toNat_getLsbD]
  omega

/-- R56: the five bits SETDIV and SETCNT read are their whole operand. -/
theorem argField_of_decodeModulus {w : Word} (zeros : w.extractLsb' 5 11 = 0) :
    (argField w).toNat = (w.extractLsb' 0 5).toNat := by
  rw [extractLsb'_eq_zero_iff] at zeros
  rw [argField_toNat, extractLsb'_toNat_div_mod]
  omega

theorem encode_msel (a b : Level) :
    encode (.msel a b) = BitVec.ofNat 20 (0x6 * 65536 + (2 * b.toNat + a.toNat)) :=
  congrArg (BitVec.ofNat 20) (Nat.add_assoc _ _ _)

/-- R55, R61: the decoder drops no operand bit, so the operation's own word is the word it was read from. -/
theorem encode_of_decode {w : Word} {i : Instr} (h : decode w = .ok i) : encode i = w := by
  have bare {n : Nat} {j : Instr} (hj : encode j = BitVec.ofNat 20 (n * 65536 + 0)) (op : (opField w).toNat = n)
      (hd : decodeBare w j = .ok i) : encode i = w := by
    obtain ⟨arg, rfl⟩ := decodeBare_eq_ok.mp hd
    exact hj.trans (ofNat_eq_of_fields op (congrArg BitVec.toNat arg))
  unfold decode at h
  split at h
  case h_1 op => exact bare rfl op h
  case h_2 op => exact bare rfl op h
  case h_3 op => exact bare rfl op h
  case h_4 op => exact bare rfl op h
  case h_5 op => exact bare rfl op h
  case h_6 op =>
    obtain ⟨zeros, rfl⟩ := decodeMsel_eq_ok.mp h
    rw [encode_msel]
    exact ofNat_eq_of_fields op (argField_of_decodeMsel zeros)
  case h_7 op =>
    obtain ⟨zeros, -, rfl⟩ := decodeModulus_eq_ok.mp h
    exact ofNat_eq_of_fields op (argField_of_decodeModulus zeros)
  case h_8 op =>
    obtain ⟨zeros, -, rfl⟩ := decodeModulus_eq_ok.mp h
    exact ofNat_eq_of_fields op (argField_of_decodeModulus zeros)
  case h_9 op =>
    cases h
    exact ofNat_eq_of_fields op rfl
  case h_10 op =>
    cases h
    exact ofNat_eq_of_fields op rfl
  case h_11 => cases h

/-- R61, both halves: the words that decode are exactly the words of the well-formed operations. -/
theorem decode_eq_ok_iff {w : Word} {i : Instr} : decode w = .ok i ↔ i.WellFormed ∧ encode i = w := by
  constructor
  · exact fun h => ⟨wellFormed_of_decode h, encode_of_decode h⟩
  · rintro ⟨wf, rfl⟩
    exact decode_encode wf

/-! ## Match and mask -/

theorem wellFormed_setdiv_iff {v : Count} : (Instr.setdiv v).WellFormed ↔ v.toNat ≤ 16 := decide_eq_true_iff

theorem wellFormed_setcnt_iff {v : Count} : (Instr.setcnt v).WellFormed ↔ v.toNat ≤ 16 := decide_eq_true_iff

/-- Masking away the low `k` bits of a word. -/
theorem toNat_and_highMask (k : Nat) (w : Word) :
    (w &&& (BitVec.allOnes 20 <<< k)).toNat = w.toNat / 2 ^ k * 2 ^ k := by
  have below : w.toNat / 2 ^ k * 2 ^ k < 2 ^ 20 := (Nat.div_mul_le_self _ _).trans_lt w.isLt
  rw [← BitVec.shiftLeft_ushiftRight, BitVec.toNat_shiftLeft, BitVec.toNat_ushiftRight, Nat.shiftLeft_eq,
    Nat.shiftRight_eq_div_pow, Nat.mod_eq_of_lt below]

/-- The word with the code `n` above the `k`-bit operand `v` is `w` exactly when `w`, its low `k` bits masked away, is
the code and those bits are `v`. -/
theorem ofNat_eq_iff_masked {k n : Nat} {w : Word} {v : BitVec k} (hn : (n + 1) * 2 ^ k ≤ 2 ^ 20) :
    BitVec.ofNat 20 (n * 2 ^ k + v.toNat) = w ↔
      w &&& (BitVec.allOnes 20 <<< k) = BitVec.ofNat 20 (n * 2 ^ k) ∧ v = w.setWidth k := by
  have hv := v.isLt
  rw [Nat.succ_mul] at hn
  have word : (BitVec.ofNat 20 (n * 2 ^ k + v.toNat)).toNat = n * 2 ^ k + v.toNat := Nat.mod_eq_of_lt (by omega)
  have code : (BitVec.ofNat 20 (n * 2 ^ k)).toNat = n * 2 ^ k := Nat.mod_eq_of_lt (by omega)
  have pos : 0 < 2 ^ k := Nat.two_pow_pos k
  rw [← BitVec.toNat_inj, ← BitVec.toNat_inj, ← BitVec.toNat_inj, word, code, toNat_and_highMask, BitVec.toNat_setWidth,
    Nat.mul_left_inj pos.ne', eq_comm (a := v.toNat), Nat.div_mod_unique pos, Nat.mul_comm, Nat.add_comm]
  exact (and_iff_left hv).symm

/-- A row of R55: where an operation's word has the code `n` above the `k`-bit operand `v`, `W & mask == match` and the
operand's legality say when a word is the operation. -/
theorem decode_eq_row_iff {k : Nat} (n : Nat) {w : Word} (v : BitVec k) {i : Instr} (hn : (n + 1) * 2 ^ k ≤ 2 ^ 20)
    (word : encode i = BitVec.ofNat 20 (n * 2 ^ k + v.toNat)) :
    decode w = .ok i ↔
      w &&& (BitVec.allOnes 20 <<< k) = BitVec.ofNat 20 (n * 2 ^ k) ∧ v = w.setWidth k ∧ i.WellFormed := by
  rw [decode_eq_ok_iff, word, ofNat_eq_iff_masked hn, and_comm, and_assoc]

/-- The rows of R55 with no operand: the mask is the whole word. -/
theorem decode_eq_bare_iff {w : Word} {i : Instr} (wf : i.WellFormed) :
    decode w = .ok i ↔ w &&& BitVec.allOnes 20 = encode i := by
  rw [decode_eq_ok_iff, BitVec.and_allOnes, eq_comm (a := w)]
  exact and_iff_right wf

/-- The row of R55 for MSEL, whose operand is the two inputs side by side. -/
theorem decode_eq_msel_iff {w : Word} {a b : Level} :
    decode w = .ok (.msel a b) ↔
      w &&& (BitVec.allOnes 20 <<< 2) = 0x60000#20 ∧ a = w.getLsbD 0 ∧ b = w.getLsbD 1 := by
  have operand : 2 * b.toNat + a.toNat = (BitVec.ofBool b ++ BitVec.ofBool a).toNat := by
    cases a <;> cases b <;> rfl
  have bits (x : BitVec 2) : BitVec.ofBool b ++ BitVec.ofBool a = x ↔ a = x.getLsbD 0 ∧ b = x.getLsbD 1 := by
    revert a b x
    decide
  have word : encode (.msel a b) = BitVec.ofNat 20 (0x18000 * 2 ^ 2 + (BitVec.ofBool b ++ BitVec.ofBool a).toNat) := by
    rw [encode_msel, operand]
    rfl
  rw [decode_eq_row_iff (k := 2) 0x18000 (BitVec.ofBool b ++ BitVec.ofBool a) (by decide) word, bits,
    BitVec.getLsbD_setWidth, BitVec.getLsbD_setWidth, and_iff_left (b := (Instr.msel a b).WellFormed) rfl]
  simp

/-! ## The words the decoder refuses -/

/-- R59: an operation without operand is refused for any operand bit. -/
theorem decodeBare_refuses_iff {w : Word} {i : Instr} :
    (∃ why, decodeBare w i = .error why) ↔ w.toNat % 65536 ≠ 0 := by
  have zero : argField w = 0 ↔ w.toNat % 65536 = 0 := by
    rw [← argField_toNat, ← BitVec.toNat_inj]
    rfl
  unfold decodeBare
  split
  case isTrue h => simpa using zero.mp h
  case isFalse h => simpa using mt zero.mpr h

/-- R59: MSEL is refused for an operand bit above its two. -/
theorem decodeMsel_refuses_iff {w : Word} :
    (∃ why, decodeMsel w = .error why) ↔ w.toNat % 65536 / 4 ≠ 0 := by
  have zeros : w.extractLsb' 2 14 = 0 ↔ w.toNat % 65536 / 4 = 0 := by
    rw [extractLsb'_eq_zero_iff]
    omega
  unfold decodeMsel
  split
  case isTrue h => simpa using zeros.mp h
  case isFalse h => simpa using mt zeros.mpr h

/-- R59: a modulus is refused for an operand bit above its five, and above 16. -/
theorem decodeModulus_refuses_iff {w : Word} {mk : Count → Instr} :
    (∃ why, decodeModulus w mk = .error why) ↔ w.toNat % 65536 / 32 ≠ 0 ∨ 16 < w.toNat % 65536 % 32 := by
  have zeros : w.extractLsb' 5 11 = 0 ↔ w.toNat % 65536 / 32 = 0 := by
    rw [extractLsb'_eq_zero_iff]
    omega
  have value : (w.extractLsb' 0 5).toNat = w.toNat % 65536 % 32 := by
    rw [extractLsb'_toNat_div_mod]
    omega
  unfold decodeModulus
  split
  case isFalse h => simpa using Or.inl (mt zeros.mpr h)
  case isTrue h =>
    split
    case isTrue hv =>
      rw [value, Config.ecMax] at hv
      simpa [zeros.mp h] using hv
    case isFalse hv =>
      rw [value, Config.ecMax, Nat.not_le] at hv
      exact iff_of_true ⟨_, rfl⟩ (.inr hv)

/-- R59: the reserved words, by operation code and operand. -/
theorem decode_refuses_iff {w : Word} {op arg : Nat} (hop : w.toNat / 65536 = op) (harg : w.toNat % 65536 = arg) :
    (∃ why, decode w = .error why) ↔
      (op = 0x0 ∨ op = 0x7 ∨ op = 0xC ∨ op = 0xD ∨ op = 0xE ∨ op = 0xF) ∨
      ((1 ≤ op ∧ op ≤ 5) ∧ arg ≠ 0) ∨
      (op = 0x6 ∧ arg / 4 ≠ 0) ∨
      ((op = 0x8 ∨ op = 0x9) ∧ arg / 32 ≠ 0) ∨
      ((op = 0x8 ∨ op = 0x9) ∧ 16 < arg % 32) := by
  have bound : op < 16 := by omega
  unfold decode
  rw [opField_toNat, hop]
  split
  case h_11 =>
    simp only [imp_false] at *
    exact iff_of_true ⟨_, rfl⟩ (.inl (by omega))
  case h_6 => simp [decodeMsel_refuses_iff, harg]
  case h_7 => simp [decodeModulus_refuses_iff, harg]
  case h_8 => simp [decodeModulus_refuses_iff, harg]
  case h_9 => simp
  case h_10 => simp
  all_goals simp [decodeBare_refuses_iff, harg]

/-- R59, R162: the step refuses a word exactly when the decoder does, for the decoder's reason. -/
theorem step_refuses_iff {s : State} {w : Word} {rest : List Word} {why : Reserved} (hev : s.events = w :: rest) :
    step s = .refused (.reservedWord why) ↔ decode w = .error why := by
  cases hd : decode w with
  | ok i =>
    rw [step_of_decode hev hd, exec_eq_next]
    simp
  | error r => simp [step, fetch_eq, hev, hd]

/-- R59: the decoder's reason for a modulus above 16 is the operand. -/
theorem decodeModulus_ofNat_above (n : Nat) {v : Nat} (mk : Count → Instr) (hv : 16 < v) (hv' : v < 32) :
    decodeModulus (BitVec.ofNat 20 (n * 65536 + v)) mk =
      .error (.operandAboveMax (BitVec.ofNat 20 (n * 65536 + v))) := by
  have zeros : (BitVec.ofNat 20 (n * 65536 + v)).extractLsb' 5 11 = 0 := by
    rw [extractLsb'_eq_zero_iff, BitVec.toNat_ofNat]
    omega
  have value : ((BitVec.ofNat 20 (n * 65536 + v)).extractLsb' 0 5).toNat = v := by
    rw [extractLsb'_toNat_div_mod, BitVec.toNat_ofNat]
    omega
  rw [decodeModulus, if_pos zeros, if_neg (by rw [value]; exact Nat.not_le.mpr hv)]

/-! ## How many words decode -/

/-- The operations in R61's order of counting: five without operand, MSEL, SETDIV, SETCNT, SETDLY, SETSWG. -/
abbrev OperationIndex :=
  Fin 5 ⊕ (Level × Level) ⊕ {v : Count // v.toNat ≤ 16} ⊕ {v : Count // v.toNat ≤ 16} ⊕ Ticks ⊕ Ticks

theorem card_bitVec (n : Nat) : Fintype.card (BitVec n) = 2 ^ n := FinEnum.card_eq_fintypeCard.symm

/-- R61's summands: 5, 4, 17 + 17 and 65,536 + 65,536. -/
theorem card_operationIndex : Fintype.card OperationIndex = 131115 := by
  have ticks : Fintype.card Ticks = 65536 := (card_bitVec 16).trans (by norm_num)
  have moduli : Fintype.card {v : Count // v.toNat ≤ 16} = 17 := by decide
  simp only [Fintype.card_sum, Fintype.card_prod, Fintype.card_fin, Fintype.card_bool, ticks, moduli]

/-- The operation at an index. -/
def operationAt : OperationIndex → Instr
  | .inl 0 => .rise
  | .inl 1 => .fall
  | .inl 2 => .tick
  | .inl 3 => .rsta
  | .inl 4 => .rstr
  | .inr (.inl (a, b)) => .msel a b
  | .inr (.inr (.inl v)) => .setdiv v
  | .inr (.inr (.inr (.inl v))) => .setcnt v
  | .inr (.inr (.inr (.inr (.inl v)))) => .setdly v
  | .inr (.inr (.inr (.inr (.inr v)))) => .setswg v

/-- The index of a well-formed operation. -/
def indexOf : (i : Instr) → i.WellFormed → OperationIndex
  | .rise, _ => .inl 0
  | .fall, _ => .inl 1
  | .tick, _ => .inl 2
  | .rsta, _ => .inl 3
  | .rstr, _ => .inl 4
  | .msel a b, _ => .inr (.inl (a, b))
  | .setdiv v, wf => .inr (.inr (.inl ⟨v, of_decide_eq_true wf⟩))
  | .setcnt v, wf => .inr (.inr (.inr (.inl ⟨v, of_decide_eq_true wf⟩)))
  | .setdly v, _ => .inr (.inr (.inr (.inr (.inl v))))
  | .setswg v, _ => .inr (.inr (.inr (.inr (.inr v))))

theorem wellFormed_operationAt (x : OperationIndex) : (operationAt x).WellFormed := by
  rcases x with k | p | v | v | v | v
  · revert k
    decide
  · rfl
  · exact decide_eq_true v.2
  · exact decide_eq_true v.2
  · rfl
  · rfl

theorem operationAt_indexOf (i : Instr) (wf : i.WellFormed) : operationAt (indexOf i wf) = i := by
  cases i <;> rfl

theorem indexOf_operationAt (x : OperationIndex) : indexOf (operationAt x) (wellFormed_operationAt x) = x := by
  rcases x with k | p | v | v | v | v
  · fin_cases k <;> rfl
  all_goals rfl

/-- No two operations share a word (R61). -/
theorem encode_operationAt_injective : Function.Injective fun x => encode (operationAt x) := by
  intro x y h
  have same : operationAt x = operationAt y := by
    have := congrArg decode h
    rw [decode_encode (wellFormed_operationAt x), decode_encode (wellFormed_operationAt y)] at this
    exact Except.ok.inj this
  rw [← indexOf_operationAt x, ← indexOf_operationAt y]
  simp only [same]

/-- The words that decode are the words of the operations (R61). -/
theorem filter_decodable_eq_image :
    (Finset.univ.filter fun w : Word => (decode w).isOk = true) =
      Finset.univ.image fun x => encode (operationAt x) := by
  ext w
  simp only [Finset.mem_filter, Finset.mem_univ, true_and, Finset.mem_image]
  constructor
  · intro h
    cases hd : decode w with
    | ok i =>
      obtain ⟨wf, word⟩ := decode_eq_ok_iff.mp hd
      exact ⟨indexOf i wf, by rw [operationAt_indexOf, word]⟩
    | error r =>
      rw [hd] at h
      cases h
  · rintro ⟨x, rfl⟩
    rw [decode_encode (wellFormed_operationAt x)]
    rfl

/-- The values on which a test fails are the rest of the type. -/
theorem card_filter_false_eq {α : Type} [Fintype α] {f : α → Bool} {m n : Nat}
    (yes : (Finset.univ.filter fun x => f x = true).card = m) (total : Fintype.card α = m + n) :
    (Finset.univ.filter fun x => f x = false).card = n := by
  have split := Finset.card_filter_add_card_filter_not (s := Finset.univ) fun x => f x = true
  simp only [Bool.not_eq_true] at split
  rw [yes, Finset.card_univ, total] at split
  exact Nat.add_left_cancel split

/-! ## The line binding -/

theorem mem_presentIf {c : Bool} {ops : List Instr} {i : Instr} : i ∈ presentIf c ops ↔ c = true ∧ i ∈ ops := by
  cases c <;> simp [presentIf]

theorem presentIf_sublist (c : Bool) (ops : List Instr) : (presentIf c ops).Sublist ops := by
  cases c
  · exact List.nil_sublist ops
  · exact List.Sublist.refl ops

/-- When the binding presents an operation (R58). -/
theorem mem_presents_iff {p q : Ports} {polled : Bool} {i : Instr} :
    i ∈ p.presents q polled ↔
      ((p.rst = false ∧ q.rst = true) ∧ i = .rsta) ∨ ((p.rst = true ∧ q.rst = false) ∧ i = .rstr) ∨
      ((p.clk = false ∧ q.clk = true) ∧ i = .rise) ∨ ((p.clk = true ∧ q.clk = false) ∧ i = .fall) ∨
      ((p.tick = false ∧ q.tick = true) ∧ i = .tick) ∨ (polled = true ∧ i = .msel q.ma q.mb) ∨
      (p.divv ≠ q.divv ∧ i = .setdiv q.divv) ∨ (p.cntv ≠ q.cntv ∧ i = .setcnt q.cntv) ∨
      (p.dlyv ≠ q.dlyv ∧ (i = .setdly q.dlyv ∨ i = .setswg q.dlyv)) := by
  simp [Ports.presents, mem_presentIf]

/-- All that one sample can present, in the order of R165: the clock line has one edge at a time. -/
def Ports.candidates (q : Ports) : List Instr :=
  [.rsta, .rstr, if q.clk then .rise else .fall, .tick, .msel q.ma q.mb, .setdiv q.divv, .setcnt q.cntv,
    .setdly q.dlyv, .setswg q.dlyv]

/-- The two edges of the clock line before `l`: at most one of them is presented, the one of the line's new level. -/
theorem clockEdges_sublist (old new : Level) {l m : List Instr} (h : l.Sublist m) :
    (presentIf (!old && new) [.rise] ++ (presentIf (old && !new) [.fall] ++ l)).Sublist
      ((if new then .rise else .fall) :: m) := by
  cases old <;> cases new <;> simp [presentIf, h, h.trans (List.sublist_cons_self _ m)]

theorem presents_sublist_candidates (p q : Ports) (polled : Bool) :
    (p.presents q polled).Sublist q.candidates :=
  (presentIf_sublist _ [_]).append <| (presentIf_sublist _ [_]).append <| clockEdges_sublist p.clk q.clk <|
    (presentIf_sublist _ [_]).append <| (presentIf_sublist _ [_]).append <| (presentIf_sublist _ [_]).append <|
    (presentIf_sublist _ [_]).append <| (presentIf_sublist _ [_, _]).append <| List.Sublist.refl []

theorem candidates_ordered (q : Ports) : (q.candidates.map arbiterRank).Pairwise (· < ·) := by
  unfold Ports.candidates
  cases q.clk <;> simp [arbiterRank]

/-! ## The obligations -/

/-- Settles O1: each operation's code and operand stand where the decoder reads them. -/
theorem encodedInstructionDecodesBack : Obligations.EncodedInstructionDecodesBack :=
  fun _ wf => decode_encode wf

/-- Settles O2: the bits the decoder requires to be zero are all the bits it does not read. -/
theorem decodedWordIsTheOnlyWord : Obligations.DecodedWordIsTheOnlyWord :=
  fun _ _ h => decode_eq_ok_iff.mp h

/-- Settles O3, row by row, from the words of the well-formed operations being the words that decode. -/
theorem decodeFollowsMatchAndMask : Obligations.DecodeFollowsMatchAndMask := by
  intro w
  refine ⟨decode_eq_bare_iff rfl, decode_eq_bare_iff rfl, decode_eq_bare_iff rfl, decode_eq_bare_iff rfl,
    decode_eq_bare_iff rfl, fun a b => decode_eq_msel_iff, fun v => ?setdiv, fun v => ?setcnt, fun v => ?setdly,
    fun v => ?setswg⟩
  case setdiv =>
    rw [← wellFormed_setdiv_iff]
    exact decode_eq_row_iff 0x4000 v (by decide) rfl
  case setcnt =>
    rw [← wellFormed_setcnt_iff]
    exact decode_eq_row_iff 0x4800 v (by decide) rfl
  case setdly =>
    rw [← and_iff_left (a := v = w.setWidth 16) (b := (Instr.setdly v).WellFormed) rfl]
    exact decode_eq_row_iff 0xA v (by decide) rfl
  case setswg =>
    rw [← and_iff_left (a := v = w.setWidth 16) (b := (Instr.setswg v).WellFormed) rfl]
    exact decode_eq_row_iff 0xB v (by decide) rfl

/-- Settles O4: the step refuses what the decoder refuses. -/
theorem reservedWordIsRefused : Obligations.ReservedWordIsRefused := by
  intro s w rest hev op arg
  rw [exists_congr fun _ => step_refuses_iff hev]
  exact decode_refuses_iff rfl rfl

/-- Settles O5: the words that decode are as many as the well-formed operations, counted as R61 counts them. -/
theorem decodableWordsNumber131115 : Obligations.DecodableWordsNumber131115 := by
  have decodable : (Finset.univ.filter fun w : Word => (decode w).isOk = true).card = 131115 := by
    rw [filter_decodable_eq_image, Finset.card_image_of_injective _ encode_operationAt_injective, Finset.card_univ,
      card_operationIndex]
  have words : Fintype.card Word = 131115 + 917461 := (card_bitVec 20).trans (by norm_num)
  exact ⟨decodable, card_filter_false_eq decodable words⟩

/-- Settles O47: what is presented is a sublist of the candidates, which stand in the fixed order. -/
theorem bindingSerialisesCoincidentEvents : Obligations.BindingSerialisesCoincidentEvents := by
  intro p q polled ops
  have ordered : (ops.map arbiterRank).Pairwise (· < ·) :=
    (candidates_ordered q).sublist ((presents_sublist_candidates p q polled).map arbiterRank)
  refine ⟨?_, ?_, ?_, ?_, ?_, fun a b => ?_, fun v => ?_, fun v => ?_, fun v => ?_, fun v => ?_, ordered⟩ <;>
    simp [ops, mem_presents_iff]

/-- Settles O6, by evaluating the decoder on the listed words. -/
theorem sampleWordsDecodeAsListed : Obligations.SampleWordsDecodeAsListed := by
  unfold Obligations.SampleWordsDecodeAsListed
  decide

/-- Settles O51: below either code, the operand is the only thing wrong with the word. -/
theorem modulusAboveMaxIsRefused : Obligations.ModulusAboveMaxIsRefused := by
  intro n s hlow hhigh
  constructor
  · refine (step_refuses_iff rfl).mpr ?_
    have op : opField (BitVec.ofNat 20 (0x80000 + n)) = 0x8 := Laws.OpcodeField.opField_ofNat 0x8 n (by omega)
    simp only [decode, op]
    exact decodeModulus_ofNat_above 0x8 .setdiv hlow (by omega)
  · refine (step_refuses_iff rfl).mpr ?_
    have op : opField (BitVec.ofNat 20 (0x90000 + n)) = 0x9 := Laws.OpcodeField.opField_ofNat 0x9 n (by omega)
    simp only [decode, op]
    exact decodeModulus_ofNat_above 0x9 .setcnt hlow (by omega)

end Sys2Proof.Machine

/-! # The EdgeCounters (spec/40_edgecounter.md)

First a layer of facts about one component's modulo step and its phase, then about what the two edges do to each
component over any number of clock cycles; the obligations follow. -/

namespace Sys2Proof.Machine

/-! ## One modulo step -/

theorem EdgeCounter.wraps_iff {c : EdgeCounter} : c.wraps = true ↔ c.val.toNat ≤ c.pos.toNat + 1 := by
  rw [EdgeCounter.wraps_eq, decide_eq_true_iff]

@[simp] theorem EdgeCounter.stepped_val (c : EdgeCounter) : c.stepped.val = c.val := rfl

theorem EdgeCounter.stepped_pos_of_wraps {c : EdgeCounter} (h : c.wraps = true) : c.stepped.pos = 0 :=
  if_pos (EdgeCounter.wraps_iff.mp h)

/-- Without a wrap the position is below the modulus, so it counts without overflow. -/
theorem EdgeCounter.stepped_pos_toNat_of_not_wraps {c : EdgeCounter} (h : ¬ c.wraps = true) :
    c.stepped.pos.toNat = c.pos.toNat + 1 := by
  rw [EdgeCounter.wraps_iff] at h
  have hv := c.val.isLt
  have hone : (1 : Count).toNat = 1 := rfl
  rw [EdgeCounter.stepped, if_neg h, BitVec.toNat_add, hone, Nat.mod_eq_of_lt (by omega)]

/-- R77: from any position, a modulus of 0 or 1 wraps. -/
theorem EdgeCounter.wraps_of_val_le_one {c : EdgeCounter} (h : c.val.toNat ≤ 1) : c.wraps = true :=
  EdgeCounter.wraps_iff.mpr (h.trans (Nat.le_add_left 1 _))

/-- R76: at the position a reset leaves, the modulus itself, the next step wraps. -/
theorem EdgeCounter.wraps_of_pos_eq_val {c : EdgeCounter} (h : c.pos = c.val) : c.wraps = true :=
  EdgeCounter.wraps_iff.mpr (h ▸ Nat.le_succ _)

/-- After a wrap, the next step wraps exactly under a modulus of 0 or 1. -/
theorem EdgeCounter.stepped_wraps_iff_of_wraps {c : EdgeCounter} (h : c.wraps = true) :
    c.stepped.wraps = true ↔ c.val.toNat ≤ 1 := by
  have hzero : (0 : Count).toNat = 0 := rfl
  rw [EdgeCounter.wraps_iff, EdgeCounter.stepped_pos_of_wraps h, EdgeCounter.stepped_val, hzero]

/-! ## The phase of a component -/

/-- The number of steps from one wrap to the next: modulus 0 behaves as modulus 1 (R77, R79). -/
def EdgeCounter.period (c : EdgeCounter) : Nat := max 1 c.val.toNat

theorem EdgeCounter.period_of_pos {c : EdgeCounter} (h : 1 ≤ c.val.toNat) : c.period = c.val.toNat := max_eq_right h

theorem EdgeCounter.period_dvd_iff (c : EdgeCounter) (m : Nat) :
    c.period ∣ m ↔ c.val.toNat = 0 ∨ c.val.toNat ∣ m := by
  rcases Nat.eq_zero_or_pos c.val.toNat with hzero | hpos
  · simp [EdgeCounter.period, hzero]
  · simp [EdgeCounter.period_of_pos hpos, hpos.ne']

/-- The component stands where `j` steps from position 0 lead. -/
def EdgeCounter.Phase (c : EdgeCounter) (j : Nat) : Prop := c.pos.toNat = j % c.period

theorem EdgeCounter.phase_zero_of_pos {c : EdgeCounter} (h : c.pos = 0) : c.Phase 0 := by
  simp [EdgeCounter.Phase, h]

/-- The step from phase `j` wraps exactly when the period divides `j + 1`: the position is `j` modulo the period, and
the wrap test holds only at the last position of the period. -/
theorem EdgeCounter.Phase.wraps_iff {c : EdgeCounter} {j : Nat} (h : c.Phase j) :
    c.wraps = true ↔ c.period ∣ j + 1 := by
  have hlt : j % c.period < c.period := Nat.mod_lt _ (by simp [EdgeCounter.period])
  have last : c.wraps = true ↔ c.period ≤ j % c.period + 1 := by
    rw [EdgeCounter.wraps_iff, h, EdgeCounter.period]
    omega
  have dvd : c.period ∣ j + 1 ↔ c.period ∣ j % c.period + 1 := by
    rw [Nat.dvd_iff_mod_eq_zero, Nat.dvd_iff_mod_eq_zero, Nat.mod_add_mod]
  rw [last, dvd]
  exact ⟨fun hle => (Nat.le_antisymm hle hlt).dvd, Nat.le_of_dvd (Nat.succ_pos _)⟩

theorem EdgeCounter.Phase.stepped {c : EdgeCounter} {j : Nat} (h : c.Phase j) : c.stepped.Phase (j + 1) := by
  show c.stepped.pos.toNat = (j + 1) % c.period
  by_cases hwrap : c.wraps = true
  · rw [stepped_pos_of_wraps hwrap, Nat.mod_eq_zero_of_dvd (h.wraps_iff.mp hwrap)]
    rfl
  · have hnot : ¬ c.val.toNat ≤ c.pos.toNat + 1 := fun hle => hwrap (EdgeCounter.wraps_iff.mpr hle)
    have hlt : j % c.period + 1 < c.period := by
      rw [← h, EdgeCounter.period]
      omega
    rw [stepped_pos_toNat_of_not_wraps hwrap, h, ← Nat.mod_add_mod, Nat.mod_eq_of_lt hlt]

theorem EdgeCounter.iterate_stepped_val (c : EdgeCounter) (k : Nat) : (EdgeCounter.stepped^[k] c).val = c.val :=
  Function.Iterate.rec (fun d : EdgeCounter => d.val = c.val) rfl (fun d h => d.stepped_val.trans h) k

theorem EdgeCounter.Phase.iterate {c : EdgeCounter} {j : Nat} (h : c.Phase j) (k : Nat) :
    (EdgeCounter.stepped^[k] c).Phase (j + k) := by
  induction k with
  | zero => exact h
  | succ k ih =>
    rw [Function.iterate_succ_apply']
    exact ih.stepped

theorem EdgeCounter.iterate_stepped_period (c : EdgeCounter) (k : Nat) :
    (EdgeCounter.stepped^[k] c).period = c.period := by
  rw [EdgeCounter.period, EdgeCounter.iterate_stepped_val, EdgeCounter.period]

/-- R79 from position 0, for every modulus. -/
theorem EdgeCounter.iterate_wraps_iff_of_pos_zero {c : EdgeCounter} (h : c.pos = 0) (k : Nat) :
    (EdgeCounter.stepped^[k] c).wraps = true ↔ c.period ∣ k + 1 := by
  rw [((phase_zero_of_pos h).iterate k).wraps_iff, iterate_stepped_period, Nat.zero_add]

/-- R79 from the position a reset leaves, for every modulus: the first step wraps, and the rest run from position 0. -/
theorem EdgeCounter.iterate_wraps_iff_of_pos_eq_val {c : EdgeCounter} (h : c.pos = c.val) (k : Nat) :
    (EdgeCounter.stepped^[k] c).wraps = true ↔ c.period ∣ k := by
  have hwrap := wraps_of_pos_eq_val h
  cases k with
  | zero => simpa using hwrap
  | succ k =>
    rw [Function.iterate_succ_apply, iterate_wraps_iff_of_pos_zero (stepped_pos_of_wraps hwrap)]
    rfl

/-- R79: a step leaves the position below the modulus. -/
theorem EdgeCounter.stepped_pos_lt {c : EdgeCounter} (h : 1 ≤ c.val.toNat) : c.stepped.pos.toNat < c.val.toNat := by
  by_cases hwrap : c.wraps = true
  · rw [stepped_pos_of_wraps hwrap]
    exact h
  · rw [stepped_pos_toNat_of_not_wraps hwrap]
    rw [EdgeCounter.wraps_iff] at hwrap
    omega

/-- `EC_next` called `k` times steps its component `k` times (R70). -/
theorem counter_iterate_ecNext (c : CounterName) (s : State) (k : Nat) :
    ((fun s => (ecNext c s).1)^[k] s).counter c = EdgeCounter.stepped^[k] (s.counter c) := by
  have step : Function.Semiconj (State.counter · c) (fun s => (ecNext c s).1) EdgeCounter.stepped := by
    intro s
    simp [ecNext_eq]
  exact step.iterate_right k s

theorem ecNext_snd (c : CounterName) (s : State) : (ecNext c s).2 = (s.counter c).wraps := by
  rw [ecNext_eq, EdgeCounter.wraps_eq]

/-! ## What an edge does to each component -/

@[simp] theorem opEffect_rise_hold (s : State) : (opEffect .rise s).hold = s.hold := by
  cases free : s.hold
  case true => rwa [opEffect_of_held (.inl rfl) free]
  case false => rw [opEffect_rise_of_free free, (riseDispatch_frame _).hold, divRise_eq, free]

@[simp] theorem opEffect_fall_hold (s : State) : (opEffect .fall s).hold = s.hold := by
  cases free : s.hold
  case true => rwa [opEffect_of_held (.inr (.inl rfl)) free]
  case false => rw [opEffect_fall_of_free free, divFall_eq, (fallDispatch_frame _).hold, free]

@[simp] theorem opEffect_rise_mode (s : State) : (opEffect .rise s).mode = s.mode :=
  congrArg Configuration.mode (configuration_opEffect_of_engine (by simp) s)

/-- R74, R125: in every mode the rising edge steps the divider, whose output is on exactly at a wrap. -/
theorem opEffect_rise_div {s : State} (free : s.hold = false) :
    (opEffect .rise s).div = { s.div.stepped with out := s.div.wraps } := by
  rw [opEffect_rise_of_free free, (riseDispatch_frame _).div, divRise_eq, EdgeCounter.wraps_eq]

/-- R75, R126: in every mode the falling edge turns the divider's output off where the next step would wrap. -/
theorem opEffect_fall_div {s : State} (free : s.hold = false) :
    (opEffect .fall s).div = { s.div with out := s.div.out && !s.div.wraps } := by
  rw [opEffect_fall_of_free free, divFall_eq, (fallDispatch_frame s).div, EdgeCounter.wraps_eq]

/-- R71, R125: in DivideAndCount the rising edge steps the counter, whose output is on exactly at a wrap. -/
theorem opEffect_rise_cnt {s : State} (free : s.hold = false) (hm : s.mode = .divideAndCount) :
    (opEffect .rise s).cnt = { s.cnt.stepped with out := s.cnt.wraps } ∧
      (opEffect .rise s).outDly = s.cnt.wraps := by
  have hm' : (divRise s).mode = .divideAndCount := by rwa [divRise_eq]
  obtain ⟨hcnt, hline⟩ := riseDispatch_counts hm'
  rw [opEffect_rise_of_free free, hcnt, hline, cntRise_eq, divRise_eq, EdgeCounter.wraps_eq]
  exact ⟨rfl, rfl⟩

/-- R72, R126: in DivideAndCount the falling edge turns the counter's output, its line and the combined output off. -/
theorem opEffect_fall_cnt {s : State} (free : s.hold = false) (hm : s.mode = .divideAndCount) :
    (opEffect .fall s).cnt = { s.cnt with out := false } ∧ (opEffect .fall s).outDly = false ∧
      (opEffect .fall s).outCmb = false := by
  obtain ⟨hcnt, hline⟩ := fallDispatch_counts hm
  rw [opEffect_fall_of_free free, divFall_eq]
  exact ⟨hcnt, hline, by simp [fallDispatch, hm]⟩

/-! ## Clock cycles -/

/-- One clock cycle with no tick in it (R57's `EDGES 1`). -/
def clockCycle (s : State) : State := opEffect .fall (opEffect .rise s)

/-- `EDGES r` (R57) is `r` clock cycles. -/
theorem execAll_edges (r : Nat) (s : State) : execAll (Pseudo.edges r) s = .next (clockCycle^[r] s) := by
  induction r generalizing s with
  | zero => rfl
  | succ r ih =>
    rw [Pseudo.edges, execAll_cons, execAll_cons, ih, Function.iterate_succ_apply]
    rfl

theorem iterate_clockCycle_hold (s : State) (r : Nat) : (clockCycle^[r] s).hold = s.hold :=
  Function.Iterate.rec (fun t : State => t.hold = s.hold) rfl (fun t h => by simp [clockCycle, h]) r

/-- R47: clock cycles keep the moduli and the mode. -/
theorem iterate_clockCycle_configuration (s : State) (r : Nat) :
    (clockCycle^[r] s).configuration = s.configuration := by
  have cycle (t : State) : (clockCycle t).configuration = t.configuration :=
    (configuration_opEffect_of_engine (by simp) _).trans (configuration_opEffect_of_engine (by simp) t)
  exact Function.Iterate.rec (fun t : State => t.configuration = s.configuration) rfl (fun t h => (cycle t).trans h) r

theorem iterate_clockCycle_mode (s : State) (r : Nat) : (clockCycle^[r] s).mode = s.mode :=
  congrArg Configuration.mode (iterate_clockCycle_configuration s r)

theorem iterate_clockCycle_div_val (s : State) (r : Nat) : (clockCycle^[r] s).div.val = s.div.val :=
  congrArg Configuration.div (iterate_clockCycle_configuration s r)

/-- A clock cycle steps the divider once, and leaves its output on at a wrap that the next step does not repeat. -/
theorem clockCycle_div {s : State} (free : s.hold = false) :
    (clockCycle s).div = { s.div.stepped with out := s.div.wraps && !s.div.stepped.wraps } := by
  rw [clockCycle, opEffect_fall_div (by simpa using free), opEffect_rise_div free]
  rfl

/-- In DivideAndCount a clock cycle steps the counter once, and leaves its output off. -/
theorem clockCycle_cnt {s : State} (free : s.hold = false) (hm : s.mode = .divideAndCount) :
    (clockCycle s).cnt = { s.cnt.stepped with out := false } := by
  obtain ⟨hrise, -⟩ := opEffect_rise_cnt free hm
  obtain ⟨hfall, -⟩ := opEffect_fall_cnt (s := opEffect .rise s) (by simpa using free) (by simpa using hm)
  rw [clockCycle, hfall, hrise]

/-- A component that every clock cycle steps once, but for its output, wraps after `r` cycles as after `r` steps: the wrap
test does not read the output. -/
theorem iterate_clockCycle_wraps_eq {comp : State → EdgeCounter} {s : State}
    (cycle : ∀ k, ∃ l, comp (clockCycle (clockCycle^[k] s)) = { (comp (clockCycle^[k] s)).stepped with out := l })
    (r : Nat) : (comp (clockCycle^[r] s)).wraps = (EdgeCounter.stepped^[r] (comp s)).wraps := by
  have same : ∃ l, comp (clockCycle^[r] s) = { EdgeCounter.stepped^[r] (comp s) with out := l } := by
    induction r with
    | zero => exact ⟨(comp s).out, rfl⟩
    | succ r ih =>
      obtain ⟨l, hl⟩ := ih
      obtain ⟨l', hl'⟩ := cycle r
      rw [Function.iterate_succ_apply', Function.iterate_succ_apply', hl', hl]
      exact ⟨l', rfl⟩
  obtain ⟨l, hl⟩ := same
  rw [hl]
  rfl

/-- R80: from the position a reset leaves, the rising edge after `r` cycles wraps the divider exactly when the modulus
is at most 1 or divides `r`. -/
theorem iterate_clockCycle_div_wraps_iff {s : State} (free : s.hold = false) (hpos : s.div.pos = s.div.val) (r : Nat) :
    (clockCycle^[r] s).div.wraps = true ↔ s.div.val.toNat ≤ 1 ∨ s.div.val.toNat ∣ r := by
  have cycle (k : Nat) := clockCycle_div ((iterate_clockCycle_hold s k).trans free)
  rw [iterate_clockCycle_wraps_eq (comp := State.div) (fun k => ⟨_, cycle k⟩),
    EdgeCounter.iterate_wraps_iff_of_pos_eq_val hpos, EdgeCounter.period_dvd_iff]
  have one_dvd_of_eq : s.div.val.toNat = 1 → s.div.val.toNat ∣ r := fun h => h ▸ one_dvd r
  rw [Nat.le_one_iff_eq_zero_or_eq_one]
  tauto

/-- R81: from position 0, the rising edge after `r` cycles in DivideAndCount wraps the counter exactly when the modulus
is 0 or divides `r + 1`. -/
theorem iterate_clockCycle_cnt_wraps_iff {s : State} (free : s.hold = false) (hm : s.mode = .divideAndCount)
    (hpos : s.cnt.pos = 0) (r : Nat) :
    (clockCycle^[r] s).cnt.wraps = true ↔ s.cnt.val.toNat = 0 ∨ s.cnt.val.toNat ∣ r + 1 := by
  have cycle (k : Nat) :=
    clockCycle_cnt ((iterate_clockCycle_hold s k).trans free) ((iterate_clockCycle_mode s k).trans hm)
  rw [iterate_clockCycle_wraps_eq (comp := State.cnt) (fun k => ⟨_, cycle k⟩),
    EdgeCounter.iterate_wraps_iff_of_pos_zero hpos, EdgeCounter.period_dvd_iff]

/-- R80: a cycle leaves the divider's output on exactly when it began with a wrap and the modulus is at least 2. -/
theorem clockCycle_div_out_iff {s : State} (free : s.hold = false) :
    (clockCycle s).div.out = true ↔ 2 ≤ s.div.val.toNat ∧ s.div.wraps = true := by
  rw [clockCycle_div free]
  by_cases hwrap : s.div.wraps = true
  · have hnext := not_congr (EdgeCounter.stepped_wraps_iff_of_wraps hwrap)
    rw [Bool.not_eq_true, Nat.not_le] at hnext
    simp [hwrap, hnext, Nat.lt_iff_add_one_le]
  · simp [hwrap]

/-! ## The obligations -/

/-- Settles O32, from the equation of `EC_next`. -/
theorem ecNextWrapsAtModulus : Obligations.EcNextWrapsAtModulus := by
  intro c s
  rw [ecNext_eq]
  exact ⟨decide_eq_true_iff, rfl⟩

/-- Settles O33: the component's phase counts the calls since position 0. -/
theorem ecNextWrapPeriod : Obligations.EcNextWrapPeriod := by
  rintro c s N k hN rfl
  intro after
  have hafter : after.counter c = EdgeCounter.stepped^[k] (s.counter c) := counter_iterate_ecNext c s k
  rw [ecNext_snd, ecNext_eq, State.counter_setCounter_same, hafter, ← EdgeCounter.period_of_pos hN]
  refine ⟨fun hpos => EdgeCounter.iterate_wraps_iff_of_pos_zero hpos k, fun hpos => ?_, ?_⟩
  · rw [EdgeCounter.period_of_pos hN] at hpos
    exact EdgeCounter.iterate_wraps_iff_of_pos_eq_val (BitVec.eq_of_toNat_eq hpos) k
  · have hval := EdgeCounter.iterate_stepped_val (s.counter c) k
    rw [EdgeCounter.period_of_pos hN, ← hval]
    exact EdgeCounter.stepped_pos_lt (hval ▸ hN)

/-- Settles O34: with a modulus of 0 or 1 the rising edge wraps, to a position where the next step would wrap too. -/
theorem degenerateModulusCopiesInput : Obligations.DegenerateModulusCopiesInput := by
  intro s free
  have free' : (opEffect .rise s).hold = false := by simpa using free
  refine ⟨_, _, exec_eq_next _ _, exec_eq_next _ _, fun hval => ?_, fun hm hval => ?_⟩
  · have hwrap := EdgeCounter.wraps_of_val_le_one hval
    have hpos := EdgeCounter.stepped_pos_of_wraps hwrap
    have hrise := opEffect_rise_div free
    have hnext := (EdgeCounter.stepped_wraps_iff_of_wraps hwrap).mpr hval
    have hfall : (opEffect .fall (opEffect .rise s)).div = _ := clockCycle_div free
    simp [hrise, hfall, hwrap, hpos, hnext]
  · have hm' : (opEffect .rise s).mode = .divideAndCount := by simpa using hm
    have hwrap := EdgeCounter.wraps_of_val_le_one hval
    have hpos := EdgeCounter.stepped_pos_of_wraps hwrap
    obtain ⟨hrise, hrise'⟩ := opEffect_rise_cnt free hm
    obtain ⟨hfall, hfall', -⟩ := opEffect_fall_cnt free' hm'
    simp [hfall, hfall', hrise, hrise', hwrap, hpos]

/-- Settles O35: RSTA puts the divider's position at the modulus it has then, and a SETDIV in the hold leaves it
there. -/
theorem firstRiseAfterResetWraps : Obligations.FirstRiseAfterResetWraps := by
  intro s v _
  simp only [execAll_cons]
  refine ⟨⟨_, rfl, ?_⟩, ⟨_, rfl, ?_⟩⟩
  · have hwrap : (opEffect .rstr (opEffect .rsta s)).div.wraps = true := EdgeCounter.wraps_of_pos_eq_val rfl
    rw [opEffect_rise_div rfl]
    exact ⟨hwrap, EdgeCounter.stepped_pos_of_wraps hwrap⟩
  · rw [opEffect_rise_div rfl]
    exact ⟨rfl, EdgeCounter.wraps_eq _⟩

/-- Settles O36: the next rising edge shows whether the step after `r` cycles wraps, and the last falling edge whether
the step before it did. -/
theorem dividerWaveform : Obligations.DividerWaveform := by
  intro s r free hpos
  have freeAt (k : Nat) : (clockCycle^[k] s).hold = false := (iterate_clockCycle_hold s k).trans free
  refine ⟨_, _, execAll_edges r s, exec_eq_next _ _, ?_, fun hr => ?_⟩
  · simp only [State.outputs, opEffect_rise_div (freeAt r)]
    exact iterate_clockCycle_div_wraps_iff free hpos r
  · obtain ⟨k, rfl⟩ := Nat.exists_eq_add_of_le' hr
    have hout : (clockCycle^[k + 1] s).outputs.div = (clockCycle (clockCycle^[k] s)).div.out := by
      rw [Function.iterate_succ_apply', State.outputs]
    rw [hout, clockCycle_div_out_iff (freeAt k), iterate_clockCycle_div_wraps_iff free hpos, iterate_clockCycle_div_val,
      Nat.add_sub_cancel]
    exact and_congr_right fun htwo => or_iff_right (Nat.not_le.mpr htwo)

/-- Settles O37: the counter steps once in each cycle, and the falling edge turns everything of it off. -/
theorem counterWaveform : Obligations.CounterWaveform := by
  intro s r free hm hpos
  have freeAt : (clockCycle^[r] s).hold = false := (iterate_clockCycle_hold s r).trans free
  have modeAt : (clockCycle^[r] s).mode = .divideAndCount := (iterate_clockCycle_mode s r).trans hm
  obtain ⟨hrise, hline⟩ := opEffect_rise_cnt freeAt modeAt
  obtain ⟨hfall, hlines⟩ := opEffect_fall_cnt (s := opEffect .rise (clockCycle^[r] s)) (by simpa) (by simpa)
  refine ⟨_, _, _, execAll_edges r s, exec_eq_next _ _, exec_eq_next _ _, ?_, ?_, ?_, hlines⟩
  · rw [hrise]
    exact iterate_clockCycle_cnt_wraps_iff free hm hpos r
  · rw [hrise]
    exact hline
  · rw [hfall]

end Sys2Proof.Machine

/-! # The OneShotTimers (spec/41_oneshot_timer.md)

First a layer of facts about one timer with its line, under ticks and edges by themselves; then what the operations make
of it; the obligations follow. -/

namespace Sys2Proof.Machine

/-! ## A timer with its line -/

/-- A timer with the line that its `on` and `off` write (R94). -/
@[ext] structure Channel where
  timer : OneShotTimer
  line : Level

/-- The channel of one timer of the block. -/
def State.channel (s : State) (t : TimerName) : Channel := { timer := s.timer t, line := s.line t }

/-- `T_rise` on a channel (R90): the line keeps its level. -/
def Channel.arm (c : Channel) : Channel := { c with timer := c.timer.armed }

/-- `T_fall` on a channel (R91): the line keeps its level. -/
def Channel.latch (c : Channel) : Channel := { c with timer := c.timer.latched }

/-- `T_clock` on a channel (R92). -/
def Channel.tick (c : Channel) : Channel := { timer := c.timer.clocked, line := c.timer.clockedLine c.line }

@[simp] theorem channel_timerRise (t : TimerName) (s : State) : (timerRise t s).channel t = (s.channel t).arm := by
  simp [timerRise_eq, State.channel, Channel.arm]

@[simp] theorem channel_timerFall (t : TimerName) (s : State) : (timerFall t s).channel t = (s.channel t).latch := by
  simp [timerFall_eq, State.channel, Channel.latch]

@[simp] theorem channel_timerClock (t : TimerName) (s : State) : (timerClock t s).channel t = (s.channel t).tick := by
  simp [timerClock_eq, State.channel, Channel.tick]

@[simp] theorem channel_iterate_timerClock (t : TimerName) (n : Nat) (s : State) :
    ((timerClock t)^[n] s).channel t = Channel.tick^[n] (s.channel t) :=
  Function.Semiconj.iterate_right (f := (State.channel · t)) (channel_timerClock t) n s

/-! ## One tick of a timer -/

/-- A timer with its position `n` further, modulo 2^16 (R96). -/
def OneShotTimer.advanced (x : OneShotTimer) (n : Nat) : OneShotTimer := { x with pos := x.pos + BitVec.ofNat 16 n }

@[simp] theorem OneShotTimer.advanced_zero (x : OneShotTimer) : x.advanced 0 = x := by simp [OneShotTimer.advanced]

theorem OneShotTimer.advanced_one (x : OneShotTimer) : x.advanced 1 = { x with pos := x.pos + 1 } := rfl

theorem OneShotTimer.advanced_advanced (x : OneShotTimer) (m n : Nat) :
    (x.advanced m).advanced n = x.advanced (m + n) := by
  simp only [OneShotTimer.advanced, BitVec.ofNat_add, BitVec.add_assoc]

theorem OneShotTimer.advanced_pos_toNat (x : OneShotTimer) (n : Nat) :
    (x.advanced n).pos.toNat = (x.pos.toNat + n) % 65536 := by
  simp [OneShotTimer.advanced]

theorem OneShotTimer.advanced_pos_toNat_of_lt {x : OneShotTimer} {n : Nat} (h : x.pos.toNat + n < 65536) :
    (x.advanced n).pos.toNat = x.pos.toNat + n := by
  rw [advanced_pos_toNat, Nat.mod_eq_of_lt h]

@[simp] theorem OneShotTimer.clocked_rise (x : OneShotTimer) : x.clocked.rise = x.rise := by
  unfold OneShotTimer.clocked
  split <;> rfl

@[simp] theorem OneShotTimer.clocked_fall (x : OneShotTimer) : x.clocked.fall = x.fall := by
  unfold OneShotTimer.clocked
  split <;> rfl

theorem OneShotTimer.clocked_pos {x : OneShotTimer} (run : x.run = true) : x.clocked.pos = x.pos + 1 := by
  rw [OneShotTimer.clocked, if_pos run]

/-- R99: a stopped timer ignores the tick. -/
theorem Channel.tick_of_stopped {c : Channel} (stopped : c.timer.run = false) : c.tick = c := by
  simp [Channel.tick, OneShotTimer.clocked, OneShotTimer.clockedLine, stopped]

/-- R92: a tick that takes the position to the fall mark at most only counts, and turns the line on past `rise`. -/
theorem Channel.tick_of_within {c : Channel} (run : c.timer.run = true)
    (within : (c.timer.advanced 1).pos.toNat ≤ c.timer.fall.toNat) :
    c.tick = { timer := c.timer.advanced 1
               line := if c.timer.rise.toNat < (c.timer.advanced 1).pos.toNat then true else c.line } := by
  rw [OneShotTimer.advanced_one] at *
  simp only [Channel.tick, OneShotTimer.clocked, OneShotTimer.clockedLine, if_pos run, if_neg (Nat.not_lt.mpr within),
    decide_eq_true within]
  rw [run]

/-- R92: the tick that takes the position past the fall mark stops the timer and turns the line off. -/
theorem Channel.tick_of_past {c : Channel} (run : c.timer.run = true)
    (past : c.timer.fall.toNat < (c.timer.advanced 1).pos.toNat) :
    c.tick = { timer := { c.timer.advanced 1 with run := false }, line := false } := by
  rw [OneShotTimer.advanced_one] at *
  simp only [Channel.tick, OneShotTimer.clocked, OneShotTimer.clockedLine, if_pos run, if_pos past,
    decide_eq_false (Nat.not_le.mpr past)]

/-! ## Ticks that stay within the fall mark -/

/-- The timer runs, and none of the next `n` ticks takes it past its fall mark. -/
structure OneShotTimer.RunsFor (x : OneShotTimer) (n : Nat) : Prop where
  run : x.run = true
  within : ∀ k, 1 ≤ k → k ≤ n → (x.advanced k).pos.toNat ≤ x.fall.toNat

theorem OneShotTimer.RunsFor.mono {x : OneShotTimer} {m n : Nat} (h : x.RunsFor n) (hmn : m ≤ n) : x.RunsFor m :=
  ⟨h.run, fun k hk hkm => h.within k hk (hkm.trans hmn)⟩

/-- Below the fall mark the position counts without overflow. -/
theorem OneShotTimer.runsFor_of_le {x : OneShotTimer} {n : Nat} (run : x.run = true)
    (hle : x.pos.toNat + n ≤ x.fall.toNat) : x.RunsFor n := by
  refine ⟨run, fun k _ hkn => ?_⟩
  have := x.fall.isLt
  rw [advanced_pos_toNat_of_lt (by omega)]
  omega

/-- R187: no position exceeds the fall mark 0xFFFF. -/
theorem OneShotTimer.runsFor_of_full {x : OneShotTimer} (run : x.run = true) (full : x.fall = 0xFFFF#16) (n : Nat) :
    x.RunsFor n := by
  refine ⟨run, fun k _ _ => ?_⟩
  rw [full]
  exact Nat.le_of_lt_succ (x.advanced k).pos.isLt

theorem Channel.iterate_tick_timer {c : Channel} {n : Nat} (h : c.timer.RunsFor n) :
    (Channel.tick^[n] c).timer = c.timer.advanced n := by
  induction n with
  | zero => simp
  | succ n ih =>
    have timer := ih (h.mono n.le_succ)
    have next : (c.timer.advanced n).advanced 1 = c.timer.advanced (n + 1) := OneShotTimer.advanced_advanced _ n 1
    rw [Function.iterate_succ_apply', Channel.tick_of_within, timer, next]
    · rw [timer]
      exact h.run
    · rw [timer, next]
      exact h.within (n + 1) n.succ_pos le_rfl

/-- R92: the last of the ticks turns the line on exactly when it takes the position past `rise`. -/
theorem Channel.iterate_succ_tick_line {c : Channel} {n : Nat} (h : c.timer.RunsFor (n + 1)) :
    (Channel.tick^[n + 1] c).line =
      if c.timer.rise.toNat < (c.timer.advanced (n + 1)).pos.toNat then true else (Channel.tick^[n] c).line := by
  have timer := Channel.iterate_tick_timer (h.mono n.le_succ)
  have next : (c.timer.advanced n).advanced 1 = c.timer.advanced (n + 1) := OneShotTimer.advanced_advanced _ n 1
  rw [Function.iterate_succ_apply', Channel.tick_of_within, timer, next]
  · rfl
  · rw [timer]
    exact h.run
  · rw [timer, next]
    exact h.within (n + 1) n.succ_pos le_rfl

theorem Channel.iterate_tick_line {c : Channel} {n : Nat} (run : c.timer.run = true)
    (hle : c.timer.pos.toNat + n ≤ c.timer.fall.toNat) :
    (Channel.tick^[n] c).line = if 1 ≤ n ∧ c.timer.rise.toNat < c.timer.pos.toNat + n then true else c.line := by
  induction n with
  | zero => simp
  | succ n ih =>
    have := c.timer.fall.isLt
    rw [iterate_succ_tick_line (OneShotTimer.runsFor_of_le run hle),
      OneShotTimer.advanced_pos_toNat_of_lt (by omega), ih (by omega)]
    by_cases on : c.timer.rise.toNat < c.timer.pos.toNat + (n + 1)
    · rw [if_pos on, if_pos ⟨n.succ_pos, on⟩]
    · rw [if_neg on, if_neg (by omega), if_neg (by omega)]

/-! ## Any number of ticks under a fall mark below 0xFFFF -/

/-- A running timer after `n` ticks (R97, R186): it counts up to its fall mark, and the tick after that stops it. -/
def OneShotTimer.ticked (x : OneShotTimer) (n : Nat) : OneShotTimer :=
  if x.pos.toNat + n ≤ x.fall.toNat then x.advanced n else { x with pos := x.fall + 1, run := false }

/-- The level of a running timer's line after `n` ticks, from its level before. -/
def OneShotTimer.tickedLine (x : OneShotTimer) (n : Nat) (l : Level) : Level :=
  if x.fall.toNat < x.pos.toNat + n then false
  else if 1 ≤ n ∧ x.rise.toNat < x.pos.toNat + n then true else l

/-- A running timer not past its fall mark stops at the tick that takes it past the mark, and stays stopped. -/
theorem Channel.iterate_tick_eq {c : Channel} (run : c.timer.run = true)
    (start : c.timer.pos.toNat ≤ c.timer.fall.toNat) (below : c.timer.fall.toNat < 65535) (n : Nat) :
    Channel.tick^[n] c = { timer := c.timer.ticked n, line := c.timer.tickedLine n c.line } := by
  by_cases hle : c.timer.pos.toNat + n ≤ c.timer.fall.toNat
  · rw [OneShotTimer.ticked, if_pos hle, OneShotTimer.tickedLine, if_neg (Nat.not_lt.mpr hle),
      ← iterate_tick_timer (OneShotTimer.runsFor_of_le run hle), ← iterate_tick_line run hle]
  · obtain ⟨m, hm⟩ := Nat.exists_eq_add_of_le start
    obtain ⟨r, rfl⟩ := Nat.exists_eq_add_of_le (show m + 1 ≤ n by omega)
    have timer := iterate_tick_timer (OneShotTimer.runsFor_of_le run hm.ge)
    have last : (c.timer.advanced m).advanced 1 = { c.timer with pos := c.timer.fall + 1 } := by
      have : (c.timer.advanced m).pos = c.timer.fall := by
        apply BitVec.eq_of_toNat_eq
        rw [OneShotTimer.advanced_pos_toNat_of_lt (by omega), hm]
      rw [OneShotTimer.advanced_one, this]
      rfl
    have stop : Channel.tick^[m + 1] c =
        { timer := { c.timer with pos := c.timer.fall + 1, run := false }, line := false } := by
      rw [Function.iterate_succ_apply', Channel.tick_of_past, timer, last]
      · rw [timer]
        exact run
      · have hone : (1 : Ticks).toNat = 1 := rfl
        rw [timer, last, BitVec.toNat_add, hone]
        show c.timer.fall.toNat < _
        omega
    rw [OneShotTimer.ticked, if_neg hle, OneShotTimer.tickedLine, if_pos (Nat.not_le.mp hle), Nat.add_comm (m + 1) r,
      Function.iterate_add_apply, stop, Function.iterate_fixed (tick_of_stopped rfl)]

@[simp] theorem OneShotTimer.ticked_rise (x : OneShotTimer) (n : Nat) : (x.ticked n).rise = x.rise := by
  unfold OneShotTimer.ticked
  split <;> rfl

@[simp] theorem OneShotTimer.ticked_val (x : OneShotTimer) (n : Nat) : (x.ticked n).val = x.val := by
  unfold OneShotTimer.ticked
  split <;> rfl

@[simp] theorem OneShotTimer.ticked_fall (x : OneShotTimer) (n : Nat) : (x.ticked n).fall = x.fall := by
  unfold OneShotTimer.ticked
  split <;> rfl

theorem OneShotTimer.ticked_run {x : OneShotTimer} (run : x.run = true) (n : Nat) :
    (x.ticked n).run = decide (x.pos.toNat + n ≤ x.fall.toNat) := by
  unfold OneShotTimer.ticked
  split
  case isTrue hle => exact run.trans (decide_eq_true hle).symm
  case isFalse hle => exact (decide_eq_false hle).symm

theorem OneShotTimer.ticked_pos_toNat {x : OneShotTimer} (below : x.fall.toNat < 65535) (n : Nat) :
    (x.ticked n).pos.toNat = min (x.pos.toNat + n) (x.fall.toNat + 1) := by
  unfold OneShotTimer.ticked
  split
  case isTrue hle => rw [advanced_pos_toNat_of_lt (by omega), Nat.min_eq_left (by omega)]
  case isFalse hle =>
    have hone : (1 : Ticks).toNat = 1 := rfl
    rw [BitVec.toNat_add, hone, Nat.mod_eq_of_lt (by omega), Nat.min_eq_right (by omega)]

/-! ## A pulse: an arming, its ticks, and a falling edge among them -/

@[simp] theorem OneShotTimer.armed_rise (x : OneShotTimer) : x.armed.rise = x.val := rfl

@[simp] theorem OneShotTimer.armed_fall (x : OneShotTimer) : x.armed.fall = x.fall := rfl

@[simp] theorem OneShotTimer.armed_val (x : OneShotTimer) : x.armed.val = x.val := rfl

@[simp] theorem OneShotTimer.armed_pos_toNat (x : OneShotTimer) : x.armed.pos.toNat = 0 := rfl

/-- A timer with the fall mark that a falling edge after `h` more ticks latches (R91). -/
def OneShotTimer.markedAt (x : OneShotTimer) (h : Nat) : OneShotTimer := { x with fall := x.rise + (x.advanced h).pos }

/-- The ticks before a falling edge are the same under the mark that it latches as under the old one, when both are at
least as far as the edge: so the mark may as well stand from the start. -/
theorem Channel.latch_iterate_tick {c : Channel} {h : Nat} (run : c.timer.run = true)
    (old : c.timer.pos.toNat + h ≤ c.timer.fall.toNat)
    (new : c.timer.pos.toNat + h ≤ (c.timer.markedAt h).fall.toNat) :
    (Channel.tick^[h] c).latch = Channel.tick^[h] { c with timer := c.timer.markedAt h } := by
  have timer := iterate_tick_timer (OneShotTimer.runsFor_of_le run old)
  have timer' := iterate_tick_timer (c := { c with timer := c.timer.markedAt h }) (OneShotTimer.runsFor_of_le run new)
  have line := iterate_tick_line run old
  have line' := iterate_tick_line (c := { c with timer := c.timer.markedAt h }) run new
  refine Channel.ext ?_ (line.trans line'.symm)
  rw [Channel.latch, timer, timer']
  rfl

theorem OneShotTimer.armed_markedAt_fall {x : OneShotTimer} {h : Nat} (sum : x.val.toNat + h < 65535) :
    (x.armed.markedAt h).fall.toNat = x.val.toNat + h := by
  have pos : (x.armed.advanced h).pos.toNat = h :=
    (advanced_pos_toNat_of_lt (by rw [armed_pos_toNat]; omega)).trans (by simp)
  show (x.val + (x.armed.advanced h).pos).toNat = _
  rw [BitVec.toNat_add, pos, Nat.mod_eq_of_lt (by omega)]

/-- R98 up to the falling edge: armed and not past its old mark, a timer runs, and its line goes on past the delay. -/
theorem Channel.iterate_tick_arm {c : Channel} {k : Nat} (old : k ≤ c.timer.fall.toNat) :
    Channel.tick^[k] c.arm =
      { timer := c.timer.armed.advanced k, line := if k ≤ c.timer.val.toNat then c.line else true } := by
  have within : c.arm.timer.pos.toNat + k ≤ c.arm.timer.fall.toNat := by
    simpa [Channel.arm] using old
  refine Channel.ext (iterate_tick_timer (OneShotTimer.runsFor_of_le rfl within)) ?_
  rw [iterate_tick_line rfl within]
  by_cases hk : k ≤ c.timer.val.toNat
  · rw [if_pos hk, if_neg]
    · rfl
    · simp [Channel.arm, hk]
  · rw [if_neg hk, if_pos]
    simp only [Channel.arm, OneShotTimer.armed_rise, OneShotTimer.armed_pos_toNat]
    omega

/-- R98: the level that a pulse of `h` ticks gives the line `k` ticks after the arming. -/
theorem OneShotTimer.armed_tickedLine {x : OneShotTimer} {h : Nat} (mark : x.fall.toNat = x.val.toNat + h) (k : Nat)
    (l : Level) :
    x.armed.tickedLine k l = if k ≤ x.val.toNat then l else decide (k ≤ x.val.toNat + h) := by
  simp only [OneShotTimer.tickedLine, armed_rise, armed_fall, armed_pos_toNat, Nat.zero_add, mark]
  by_cases hV : k ≤ x.val.toNat
  · rw [if_neg (by omega), if_neg (by omega), if_pos hV]
  · by_cases hh : k ≤ x.val.toNat + h
    · rw [if_neg (by omega), if_pos (by omega), if_neg hV, decide_eq_true hh]
    · rw [if_pos (by omega), if_neg hV, decide_eq_false hh]

/-- R98 from the falling edge on: it is as if the timer had been armed under the mark that the edge latched. -/
theorem Channel.iterate_tick_latch_arm {c : Channel} {h : Nat} (old : h ≤ c.timer.fall.toNat)
    (sum : c.timer.val.toNat + h < 65535) (n : Nat) :
    Channel.tick^[n] (Channel.tick^[h] c.arm).latch =
      { timer := (c.timer.armed.markedAt h).ticked (h + n)
        line := if h + n ≤ c.timer.val.toNat then c.line else decide (h + n ≤ c.timer.val.toNat + h) } := by
  have mark := OneShotTimer.armed_markedAt_fall sum
  rw [latch_iterate_tick rfl, ← Function.iterate_add_apply, Nat.add_comm n h, iterate_tick_eq rfl]
  · exact Channel.ext rfl (OneShotTimer.armed_tickedLine (x := { c.timer with fall := _ }) mark (h + n) c.line)
  · exact Nat.zero_le _
  · exact mark.trans_lt sum
  · exact (Nat.zero_add h).trans_le old
  · exact (Nat.zero_add h).trans_le (mark ▸ Nat.le_add_left _ _)

/-- R98: the line of a whole pulse, before and after its falling edge. -/
theorem timerPulse_line {t : TimerName} {s : State} {h : Nat} (old : h ≤ (s.timer t).fall.toNat)
    (sum : (s.timer t).val.toNat + h < 65535) (k : Nat) :
    (timerPulse t h k s).line t =
      if k ≤ (s.timer t).val.toNat then s.line t else decide (k ≤ (s.timer t).val.toNat + h) := by
  by_cases hk : k ≤ h
  · have pulse : (timerPulse t h k s).channel t = Channel.tick^[k] (s.channel t).arm := by
      simp [timerPulse_of_le t h k s hk]
    rw [Channel.iterate_tick_arm (hk.trans old)] at pulse
    rw [decide_eq_true (hk.trans (Nat.le_add_left _ _))]
    exact congrArg Channel.line pulse
  · obtain ⟨n, rfl⟩ := Nat.exists_eq_add_of_le (Nat.le_of_not_le hk)
    have pulse : (timerPulse t h (h + n) s).channel t = Channel.tick^[n] (Channel.tick^[h] (s.channel t).arm).latch := by
      simp [timerPulse_of_gt t h (h + n) s (Nat.not_le.mp hk)]
    rw [Channel.iterate_tick_latch_arm old sum] at pulse
    exact congrArg Channel.line pulse

/-! ## What the operations make of a channel -/

@[simp] theorem opEffect_tick_hold (s : State) : (opEffect .tick s).hold = s.hold := by
  cases free : s.hold
  case true => rwa [opEffect_of_held (.inr (.inr rfl)) free]
  case false => simp [opEffect_tick_of_free free, timerClock_eq, free]

/-- R127: in every mode the tick clocks both channels. -/
theorem opEffect_tick_channel {s : State} (free : s.hold = false) (t : TimerName) :
    (opEffect .tick s).channel t = (s.channel t).tick := by
  rw [opEffect_tick_of_free free, timerClock_eq, timerClock_eq]
  cases t <;> rfl

theorem iterate_opEffect_tick_hold (s : State) (n : Nat) : ((opEffect .tick)^[n] s).hold = s.hold :=
  Function.Iterate.rec (fun u : State => u.hold = s.hold) rfl (fun u h => (opEffect_tick_hold u).trans h) n

theorem iterate_opEffect_tick_channel {s : State} (free : s.hold = false) (t : TimerName) (n : Nat) :
    ((opEffect .tick)^[n] s).channel t = Channel.tick^[n] (s.channel t) := by
  induction n with
  | zero => rfl
  | succ n ih =>
    rw [Function.iterate_succ_apply', opEffect_tick_channel ((iterate_opEffect_tick_hold s n).trans free), ih,
      Function.iterate_succ_apply']

/-- The edges reach the timers as in DivideAndDelay, not held. -/
structure State.Delaying (s : State) : Prop where
  free : s.hold = false
  mode : s.mode = .divideAndDelay

theorem State.Delaying.opEffect {s : State} (d : s.Delaying) {i : Instr} (hi : i = .rise ∨ i = .fall ∨ i = .tick) :
    (opEffect i s).Delaying := by
  constructor
  · rcases hi with rfl | rfl | rfl <;> simpa using d.free
  · have kept := configuration_opEffect_of_engine (i := i) (by rcases hi with rfl | rfl | rfl <;> simp) s
    exact (congrArg Configuration.mode kept).trans d.mode

theorem State.Delaying.iterate_tick {s : State} (d : s.Delaying) (n : Nat) :
    ((Machine.opEffect .tick)^[n] s).Delaying :=
  Function.Iterate.rec State.Delaying d (fun _ h => h.opEffect (.inr (.inr rfl))) n

/-- R125: in DivideAndDelay the rising edge arms the delay timer, whatever the divider does. -/
theorem State.Delaying.rise_channel {s : State} (d : s.Delaying) :
    (Machine.opEffect .rise s).channel .dly = (s.channel .dly).arm := by
  simp only [opEffect_rise_of_free d.free, divRise_eq, riseDispatch, d.mode]
  split <;> rfl

/-- R126: in DivideAndDelay the falling edge latches the delay timer's fall mark, whatever the divider does. -/
theorem State.Delaying.fall_channel {s : State} (d : s.Delaying) :
    (Machine.opEffect .fall s).channel .dly = (s.channel .dly).latch := by
  simp only [opEffect_fall_of_free d.free, divFall_eq, fallDispatch, d.mode, timerFall_eq]
  split <;> rfl

/-! ## Regular input in DivideAndDelay -/

/-- The state a list of operations leaves (R44). -/
def opsEffect (ops : List Instr) (s : State) : State := ops.foldl (fun u i => opEffect i u) s

theorem execAll_eq_next (ops : List Instr) (s : State) : execAll ops s = .next (opsEffect ops s) := by
  induction ops generalizing s with
  | nil => rfl
  | cons i ops ih => exact (execAll_cons i ops s).trans (ih _)

theorem opsEffect_cons (i : Instr) (ops : List Instr) (s : State) :
    opsEffect (i :: ops) s = opsEffect ops (opEffect i s) := rfl

theorem opsEffect_append (ops ops' : List Instr) (s : State) :
    opsEffect (ops ++ ops') s = opsEffect ops' (opsEffect ops s) := List.foldl_append

theorem opsEffect_ticks (n : Nat) (s : State) : opsEffect (Pseudo.ticks n) s = (opEffect .tick)^[n] s := by
  induction n generalizing s with
  | zero => rfl
  | succ n ih => exact ih _

theorem opsEffect_flatten_replicate (m : Nat) (ops : List Instr) (s : State) :
    opsEffect (List.replicate m ops).flatten s = (opsEffect ops)^[m] s := by
  induction m generalizing s with
  | zero => rfl
  | succ m ih => rw [List.replicate_succ, List.flatten_cons, opsEffect_append, ih, Function.iterate_succ_apply]

/-- `PULSE h, l` (R57): an edge up, `h` ticks, an edge down, `l` ticks. -/
theorem opsEffect_pulse (h l : Nat) (s : State) :
    opsEffect (Pseudo.pulse h l) s =
      (opEffect .tick)^[l] (opEffect .fall ((opEffect .tick)^[h] (opEffect .rise s))) := by
  rw [Pseudo.pulse, List.cons_append, opsEffect_cons, opsEffect_append, opsEffect_cons, opsEffect_ticks,
    opsEffect_ticks]

theorem State.Delaying.pulse {s : State} (d : s.Delaying) (h l : Nat) : (opsEffect (Pseudo.pulse h l) s).Delaying := by
  rw [opsEffect_pulse]
  exact (((d.opEffect (.inl rfl)).iterate_tick h).opEffect (.inr (.inl rfl))).iterate_tick l

theorem State.Delaying.pulse_channel {s : State} (d : s.Delaying) (h l : Nat) :
    (opsEffect (Pseudo.pulse h l) s).channel .dly =
      Channel.tick^[l] (Channel.tick^[h] (s.channel .dly).arm).latch := by
  have up := d.opEffect (.inl rfl)
  have high := up.iterate_tick h
  have down := high.opEffect (.inr (.inl rfl))
  rw [opsEffect_pulse, iterate_opEffect_tick_channel down.free, high.fall_channel, iterate_opEffect_tick_channel up.free,
    d.rise_channel]

/-- A channel `N` ticks after an arming under the fall mark it has. -/
def Channel.cycled (N : Nat) (c : Channel) : Channel :=
  { timer := c.timer.armed.ticked N, line := c.timer.armed.tickedLine N c.line }

/-- An arming depends on the fall mark and the delay only (R90), and ticks change neither. -/
@[simp] theorem OneShotTimer.armed_ticked_armed (x : OneShotTimer) (N : Nat) :
    (x.armed.ticked N).armed = x.armed := by
  simp [OneShotTimer.armed]

/-- The next arming forgets all that the ticks did, but for the line; and the line ends as it did. -/
theorem Channel.cycled_cycled (N : Nat) (c : Channel) : (c.cycled N).cycled N = c.cycled N := by
  simp only [Channel.cycled, OneShotTimer.armed_ticked_armed, OneShotTimer.tickedLine]
  congr 1
  split
  · rfl
  · split <;> rfl

/-- R184: once the fall mark has settled at `V + h`, a regular input cycle's falling edge latches the same mark again. -/
theorem State.Delaying.pulse_settled {s : State} (d : s.Delaying) {h : Nat}
    (mark : s.dly.fall.toNat = s.dly.val.toNat + h) (sum : s.dly.val.toNat + h < 65535) (l : Nat) :
    (opsEffect (Pseudo.pulse h l) s).channel .dly = (s.channel .dly).cycled (h + l) := by
  have same : (s.channel .dly).timer.armed.markedAt h = (s.channel .dly).timer.armed := by
    have : (s.dly.armed.markedAt h).fall = s.dly.fall :=
      BitVec.eq_of_toNat_eq ((OneShotTimer.armed_markedAt_fall sum).trans mark.symm)
    show { s.dly.armed with fall := (s.dly.armed.markedAt h).fall } = s.dly.armed
    rw [this]
    rfl
  rw [d.pulse_channel, Channel.iterate_tick_latch_arm (Nat.le_of_add_left_le mark.ge) sum, same]
  exact Channel.ext rfl (OneShotTimer.armed_tickedLine mark _ _).symm

/-- R184: every regular input cycle after the first leaves the delay timer and its line as the first did. -/
theorem State.Delaying.iterate_pulse_settled {s : State} (d : s.Delaying) {h : Nat}
    (mark : s.dly.fall.toNat = s.dly.val.toNat + h) (sum : s.dly.val.toNat + h < 65535) (l : Nat) {m : Nat}
    (hm : 1 ≤ m) :
    ((opsEffect (Pseudo.pulse h l))^[m] s).Delaying ∧
      ((opsEffect (Pseudo.pulse h l))^[m] s).channel .dly = (s.channel .dly).cycled (h + l) := by
  induction m, hm using Nat.le_induction with
  | base => exact ⟨d.pulse h l, d.pulse_settled mark sum l⟩
  | succ m _ ih =>
    obtain ⟨d', hch⟩ := ih
    have timer : ((opsEffect (Pseudo.pulse h l))^[m] s).dly = s.dly.armed.ticked (h + l) := congrArg Channel.timer hch
    have fall : ((opsEffect (Pseudo.pulse h l))^[m] s).dly.fall = s.dly.fall := by simp [timer]
    have val : ((opsEffect (Pseudo.pulse h l))^[m] s).dly.val = s.dly.val := by simp [timer]
    rw [Function.iterate_succ_apply']
    refine ⟨d'.pulse h l, ?_⟩
    rw [d'.pulse_settled (by rw [fall, val, mark]) (by rwa [val]), hch, Channel.cycled_cycled]

/-! ## R100: who reads the delays -/

/-- A state with other delays configured for the two timers. -/
def State.withDelays (v u : Ticks) (s : State) : State :=
  { s with dly := { s.dly with val := v }, swg := { s.swg with val := u } }

theorem OneShotTimer.clocked_withVal (x : OneShotTimer) (v : Ticks) :
    ({ x with val := v } : OneShotTimer).clocked = { x.clocked with val := v } := by
  unfold OneShotTimer.clocked
  split <;> rfl

theorem timerClock_withDelays (t : TimerName) (v u : Ticks) :
    Function.Commute (timerClock t) (State.withDelays v u) := by
  intro s
  simp only [timerClock_eq]
  cases t with
  | dly =>
    have clocked : ((s.withDelays v u).timer .dly).clocked = { s.dly.clocked with val := v } := s.dly.clocked_withVal v
    rw [clocked]
    rfl
  | swg =>
    have clocked : ((s.withDelays v u).timer .swg).clocked = { s.swg.clocked with val := u } := s.swg.clocked_withVal u
    rw [clocked]
    rfl

theorem timerFall_withDelays (t : TimerName) (v u : Ticks) :
    Function.Commute (timerFall t) (State.withDelays v u) := by
  intro s
  cases t <;> rfl

theorem divFall_withDelays (v u : Ticks) : Function.Commute divFall (State.withDelays v u) := by
  intro s
  simp only [divFall_eq]
  rfl

theorem fallDispatch_withDelays (v u : Ticks) : Function.Commute fallDispatch (State.withDelays v u) := by
  intro s
  have hmode : (s.withDelays v u).mode = s.mode := rfl
  cases hm : s.mode <;> simp only [fallDispatch, hmode, hm, apply_ite (State.withDelays v u)]
  case divideAndDelay => rfl
  case divideAndCount => rfl
  case swing => rfl

theorem unlessHeld_withDelays {f : State → State} {v u : Ticks} (hf : Function.Commute f (State.withDelays v u)) :
    Function.Commute (unlessHeld f) (State.withDelays v u) := by
  intro s
  simp only [unlessHeld, hf s, apply_ite (State.withDelays v u)]
  rfl

/-- R100, R46: an operation that neither arms a timer nor writes a delay does the same whatever the delays are. -/
theorem opEffect_withDelays {i : Instr} (hrise : i ≠ .rise) (hdly : ∀ x, i ≠ .setdly x) (hswg : ∀ x, i ≠ .setswg x)
    (v u : Ticks) : Function.Commute (opEffect i) (State.withDelays v u) := by
  cases i with
  | rise => exact absurd rfl hrise
  | fall => exact unlessHeld_withDelays ((divFall_withDelays v u).comp_left (fallDispatch_withDelays v u))
  | tick => exact unlessHeld_withDelays ((timerClock_withDelays .swg v u).comp_left (timerClock_withDelays .dly v u))
  | rsta => exact fun _ => rfl
  | rstr => exact fun _ => rfl
  | msel a b => exact fun _ => rfl
  | setdiv x => exact fun _ => rfl
  | setcnt x => exact fun _ => rfl
  | setdly x => exact absurd rfl (hdly x)
  | setswg x => exact absurd rfl (hswg x)

/-! ## The obligations -/

/-- Settles O28: the operations but RISE, SETDLY and SETSWG commute with a change of the delays. -/
theorem delayValuesAreReadAtArmingOnly : Obligations.DelayValuesAreReadAtArmingOnly := by
  intro i s t v u hrise hdly hswg hexec
  obtain rfl := exec_eq_next_iff.mp hexec
  exact exec_eq_next_iff.mpr (opEffect_withDelays hrise hdly hswg v u s)

/-- Settles O38: the ticks before the falling edge run under the old mark, and those after it as if the new mark had stood
since the arming. -/
theorem timerDelaysPulseByValPlusOne : Obligations.TimerDelaysPulseByValPlusOne := by
  intro t s h n V old sum before after
  have mark := OneShotTimer.armed_markedAt_fall sum
  have hafter : after.channel t = Channel.tick^[n] (Channel.tick^[h] (s.channel t).arm).latch := by
    simp [after, before]
  rw [Channel.iterate_tick_latch_arm old sum] at hafter
  have timer : after.timer t = ((s.timer t).armed.markedAt h).ticked (h + n) := congrArg Channel.timer hafter
  refine ⟨fun k hk => ?_, ?_, ?_, congrArg Channel.line hafter, ?_⟩
  · intro mid
    have hmid : mid.channel t = Channel.tick^[k] (s.channel t).arm := by simp [mid]
    rw [Channel.iterate_tick_arm (hk.trans old)] at hmid
    have midTimer : mid.timer t = (s.timer t).armed.advanced k := congrArg Channel.timer hmid
    have start := OneShotTimer.armed_pos_toNat (s.timer t)
    refine ⟨congrArg Channel.line hmid, by rw [midTimer]; rfl, ?_⟩
    rw [midTimer, OneShotTimer.advanced_pos_toNat_of_lt (by omega), start, Nat.zero_add]
  · rw [timer, OneShotTimer.ticked_rise]
    rfl
  · rw [timer, OneShotTimer.ticked_fall, mark]
  · have start : ((s.timer t).armed.markedAt h).pos.toNat = 0 := rfl
    rw [timer, OneShotTimer.ticked_run rfl, mark, start, Nat.zero_add]

/-- Settles O39, from the closed form of a running timer's ticks. -/
theorem runningTimerStopsPastFallMark : Obligations.RunningTimerStopsPastFallMark := by
  intro t s n run start below after
  have hafter : after.channel t = Channel.tick^[n] (s.channel t) := channel_iterate_timerClock t n s
  rw [Channel.iterate_tick_eq run start below] at hafter
  have timer : after.timer t = (s.timer t).ticked n := congrArg Channel.timer hafter
  have line : after.line t = (s.timer t).tickedLine n (s.line t) := congrArg Channel.line hafter
  rw [timer, line, OneShotTimer.ticked_run run, OneShotTimer.ticked_pos_toNat below, OneShotTimer.ticked_fall]
  exact ⟨rfl, rfl, rfl, fun past => if_pos past⟩

/-- Settles O40: under the mark 0xFFFF no tick is past the mark. -/
theorem timerWithFullFallMarkNeverStops : Obligations.TimerWithFullFallMarkNeverStops := by
  intro t s n run full after
  have runs (k : Nat) : (s.channel t).timer.RunsFor k := OneShotTimer.runsFor_of_full run full k
  have hafter : after.channel t = Channel.tick^[n] (s.channel t) := channel_iterate_timerClock t n s
  have timer : after.timer t = (s.timer t).advanced n :=
    (congrArg Channel.timer hafter).trans (Channel.iterate_tick_timer (runs n))
  rw [timer]
  refine ⟨run, full, rfl, OneShotTimer.advanced_pos_toNat _ n, fun hn past => ?_⟩
  obtain ⟨k, rfl⟩ := Nat.exists_eq_add_of_le' hn
  have line := (congrArg Channel.line hafter).trans (Channel.iterate_succ_tick_line (runs (k + 1)))
  exact line.trans (if_pos past)

/-- Settles O42: after the first settled cycle nothing new happens, and the regime is where `h + l` stands to the delay
and to the mark. -/
theorem retriggerRegimes : Obligations.RetriggerRegimes := by
  intro s h l m V free mode mark sum hm
  obtain ⟨-, hch⟩ := State.Delaying.iterate_pulse_settled ⟨free, mode⟩ mark sum l hm
  refine ⟨_, execAll_eq_next _ s, ?_⟩
  rw [opsEffect_flatten_replicate]
  generalize (opsEffect (Pseudo.pulse h l))^[m] s = t at hch
  have timer : t.dly = s.dly.armed.ticked (h + l) := congrArg Channel.timer hch
  have run : t.dly.run = decide (h + l ≤ V + h) := by
    rw [timer, OneShotTimer.ticked_run rfl, OneShotTimer.armed_pos_toNat, OneShotTimer.armed_fall, mark, Nat.zero_add]
  have line : t.outputs.dly = if h + l ≤ V then s.outputs.dly else decide (h + l ≤ V + h) :=
    (congrArg Channel.line hch).trans (OneShotTimer.armed_tickedLine mark (h + l) s.outDly)
  rw [run, line, timer, OneShotTimer.ticked_fall]
  refine ⟨mark, fun past => ?_, fun ⟨pastDelay, within⟩ => ?_, fun within => ?_⟩
  · rw [if_neg (by omega), decide_eq_false (by omega)]
    exact ⟨rfl, rfl⟩
  · rw [if_neg (by omega), decide_eq_true (by omega)]
    exact ⟨rfl, rfl⟩
  · exact ⟨if_pos within, decide_eq_true (by omega)⟩

/-- Settles O46: a tick of a running timer moves its position by one and keeps its marks, and a falling edge latches the
position it finds. -/
theorem coincidentFallAndTickOrderShows : Obligations.CoincidentFallAndTickOrderShows := by
  intro s free mode run
  have d : s.Delaying := ⟨free, mode⟩
  have fallTick : (opsEffect [.fall, .tick] s).channel .dly = (s.channel .dly).latch.tick :=
    (opEffect_tick_channel (d.opEffect (.inr (.inl rfl))).free .dly).trans (congrArg _ d.fall_channel)
  have tickFall : (opsEffect [.tick, .fall] s).channel .dly = (s.channel .dly).tick.latch :=
    (d.opEffect (.inr (.inr rfl))).fall_channel.trans (congrArg _ (opEffect_tick_channel free .dly))
  have first : (opsEffect [.fall, .tick] s).dly.fall = s.dly.rise + s.dly.pos :=
    (congrArg (·.timer.fall) fallTick).trans (OneShotTimer.clocked_fall _)
  have second : (opsEffect [.tick, .fall] s).dly.fall = s.dly.clocked.rise + s.dly.clocked.pos :=
    congrArg (·.timer.fall) tickFall
  refine ⟨_, _, execAll_eq_next _ s, execAll_eq_next _ s, first, ?_⟩
  rw [second, first, OneShotTimer.clocked_rise, OneShotTimer.clocked_pos run, BitVec.add_assoc]

/-- R194: tick `V + 1` comes between `V` and `V + 1` tick periods after the edge, at every rate and phase. -/
theorem tickSeconds_succ_mem (rate : Config.TickRate) (phase : Config.TickPhase) (V : Nat) :
    Config.seconds rate V ≤ Config.tickSeconds rate phase (V + 1) ∧
      Config.tickSeconds rate phase (V + 1) ≤ Config.seconds rate (V + 1) := by
  obtain ⟨rate, positive⟩ := rate
  obtain ⟨phase, first, last⟩ := phase
  have nonneg : 0 ≤ rate := le_of_lt positive
  simp only [Config.seconds, Config.tickSeconds, Nat.cast_add, Nat.cast_one, add_sub_cancel_right]
  exact ⟨div_le_div_of_nonneg_right (by linarith) nonneg, div_le_div_of_nonneg_right (by linarith) nonneg⟩

/-- Settles O52: the line of the pulse is first on at tick `V + 1`, and a tick's real time is its number of periods less
the part before the edge. -/
theorem delayedEdgeFallsWithinOneTickPeriod : Obligations.DelayedEdgeFallsWithinOneTickPeriod := by
  intro t s h V off old sum
  have line := timerPulse_line old sum
  refine ⟨fun hzero k => ?_, fun hpos => ⟨V + 1, ?_, fun j hj => ?_, rfl, fun rate phase =>
    tickSeconds_succ_mem rate phase V⟩⟩
  · rw [line, off]
    split
    · rfl
    · exact decide_eq_false (by omega)
  · rw [line, if_neg (by omega), decide_eq_true (by omega)]
  · rw [line, if_pos (by omega), off]

end Sys2Proof.Machine

/-! # The swing timer (spec/42_swing_timer.md)

First a layer of facts about what the edges and the ticks of mode Swing make of the swing timer's channel; the obligation
follows. -/

namespace Sys2Proof.Machine

/-! ## The wrap of an edge, and what the ticks after it keep -/

/-- R70: the position after a step tells whether the step wrapped. -/
theorem EdgeCounter.stepped_pos_eq_zero_iff {c : EdgeCounter} : c.stepped.pos = 0 ↔ c.wraps = true := by
  refine ⟨fun hpos => ?_, EdgeCounter.stepped_pos_of_wraps⟩
  by_contra hwrap
  have counted := EdgeCounter.stepped_pos_toNat_of_not_wraps hwrap
  rw [hpos] at counted
  exact absurd counted.symm (Nat.succ_ne_zero _)

/-- R127, R47: a tick keeps the mode. -/
@[simp] theorem opEffect_tick_mode (s : State) : (opEffect .tick s).mode = s.mode :=
  congrArg Configuration.mode (configuration_opEffect_of_engine (by simp) s)

/-- R127: a tick leaves the divider alone. -/
@[simp] theorem opEffect_tick_div (s : State) : (opEffect .tick s).div = s.div := by
  cases free : s.hold
  case true => rw [opEffect_of_held (.inr (.inr rfl)) free]
  case false => simp [opEffect_tick_of_free free, timerClock_eq]

theorem iterate_opEffect_tick_mode (s : State) (n : Nat) : ((opEffect .tick)^[n] s).mode = s.mode :=
  congrFun (Function.iterate_invariant (g := State.mode) (funext opEffect_tick_mode) n) s

theorem iterate_opEffect_tick_div (s : State) (n : Nat) : ((opEffect .tick)^[n] s).div = s.div :=
  congrFun (Function.iterate_invariant (g := State.div) (funext opEffect_tick_div) n) s

/-- R99: a stopped timer and its line stay as they are under any number of ticks. -/
theorem Channel.iterate_tick_of_stopped {c : Channel} (stopped : c.timer.run = false) (n : Nat) :
    Channel.tick^[n] c = c :=
  Function.iterate_fixed (Channel.tick_of_stopped stopped) n

/-! ## The edges in mode Swing -/

/-- A channel whose line is written from outside its timer, as the engine writes `OUT_CMB` (R19). -/
def Channel.passing (c : Channel) (l : Level) : Channel := { c with line := l }

/-- R125: in Swing the rising edge arms the swing timer when the divider wraps, and else turns the combined output on. -/
theorem swing_rise_channel {s : State} (free : s.hold = false) (mode : s.mode = .swing) :
    (opEffect .rise s).channel .swg =
      if s.div.wraps = true then (s.channel .swg).arm else (s.channel .swg).passing true := by
  have wrap : (divRise s).div.pos = 0 ↔ s.div.wraps = true := by
    rw [divRise_eq]
    exact EdgeCounter.stepped_pos_eq_zero_iff
  have mode' : (divRise s).mode = .swing := by rwa [divRise_eq]
  have same : (divRise s).channel .swg = s.channel .swg := by
    rw [divRise_eq]
    rfl
  simp only [opEffect_rise_of_free free, riseDispatch, mode', wrap]
  split
  · rw [channel_timerRise, same]
  · rw [← same]
    rfl

/-- R126: in Swing the falling edge latches the fall mark at position 0, and else turns the combined output off. -/
theorem swing_fall_channel {s : State} (free : s.hold = false) (mode : s.mode = .swing) :
    (opEffect .fall s).channel .swg =
      if s.div.pos = 0 then (s.channel .swg).latch else (s.channel .swg).passing false := by
  have same (u : State) : (divFall u).channel .swg = u.channel .swg := by
    rw [divFall_eq]
    rfl
  simp only [opEffect_fall_of_free free, same, fallDispatch, mode]
  split
  · exact channel_timerFall .swg s
  · rfl

/-! ## One input cycle in mode Swing -/

/-- The state with the input high: a rising edge and `h` ticks. -/
def State.risen (h : Nat) (s : State) : State := (opEffect .tick)^[h] (opEffect .rise s)

theorem opsEffect_rise_ticks (h : Nat) (s : State) : opsEffect (.rise :: Pseudo.ticks h) s = s.risen h :=
  opsEffect_ticks h (opEffect .rise s)

theorem opsEffect_fall_ticks (n : Nat) (s : State) :
    opsEffect (.fall :: Pseudo.ticks n) s = (opEffect .tick)^[n] (opEffect .fall s) :=
  opsEffect_ticks n (opEffect .fall s)

theorem risen_hold {s : State} (free : s.hold = false) (h : Nat) : (s.risen h).hold = false := by
  rw [State.risen, iterate_opEffect_tick_hold, opEffect_rise_hold, free]

theorem risen_mode {s : State} (mode : s.mode = .swing) (h : Nat) : (s.risen h).mode = .swing := by
  rw [State.risen, iterate_opEffect_tick_mode, opEffect_rise_mode, mode]

/-- Until the falling edge the divider stands at position 0 exactly when the rising edge wrapped it (R125, R127): both edges
of a cycle take the same arm of their dispatches. -/
theorem risen_div_pos_eq_zero_iff {s : State} (free : s.hold = false) (h : Nat) :
    (s.risen h).div.pos = 0 ↔ s.div.wraps = true := by
  rw [State.risen, iterate_opEffect_tick_div, opEffect_rise_div free]
  exact EdgeCounter.stepped_pos_eq_zero_iff

theorem swing_risen_channel {s : State} (free : s.hold = false) (mode : s.mode = .swing) (h : Nat) :
    (s.risen h).channel .swg =
      Channel.tick^[h] (if s.div.wraps = true then (s.channel .swg).arm else (s.channel .swg).passing true) := by
  rw [State.risen, iterate_opEffect_tick_channel (by simpa using free), swing_rise_channel free mode]

theorem swing_fallen_channel {s : State} (free : s.hold = false) (mode : s.mode = .swing) (h n : Nat) :
    (opsEffect (.fall :: Pseudo.ticks n) (s.risen h)).channel .swg =
      Channel.tick^[n] (if s.div.wraps = true then ((s.risen h).channel .swg).latch
        else ((s.risen h).channel .swg).passing false) := by
  have free' := risen_hold free h
  rw [opsEffect_fall_ticks, iterate_opEffect_tick_channel (by simpa using free'),
    swing_fall_channel free' (risen_mode mode h)]
  simp only [risen_div_pos_eq_zero_iff free]

/-- R111: a wrap cycle is a pulse of the swing timer, as R98 has it. -/
theorem swing_wrap_cycle_channel {s : State} (free : s.hold = false) (mode : s.mode = .swing)
    (wraps : s.div.wraps = true) (h n : Nat) :
    (opsEffect (.rise :: Pseudo.ticks h ++ .fall :: Pseudo.ticks n) s).channel .swg =
      Channel.tick^[n] (Channel.tick^[h] (s.channel .swg).arm).latch := by
  rw [opsEffect_append, opsEffect_rise_ticks, swing_fallen_channel free mode, swing_risen_channel free mode,
    if_pos wraps, if_pos wraps]

/-- R111: on another cycle, a stopped swing timer leaves the combined output to the edges: on while the input is high. -/
theorem swing_pass_risen_channel {s : State} (free : s.hold = false) (mode : s.mode = .swing)
    (pass : ¬ s.div.wraps = true) (stopped : s.swg.run = false) (h : Nat) :
    (s.risen h).channel .swg = (s.channel .swg).passing true := by
  rw [swing_risen_channel free mode, if_neg pass]
  exact Channel.iterate_tick_of_stopped (c := (s.channel .swg).passing true) stopped h

/-- R111: on another cycle, the combined output is off again from the falling edge on. -/
theorem swing_pass_fallen_channel {s : State} (free : s.hold = false) (mode : s.mode = .swing)
    (pass : ¬ s.div.wraps = true) (stopped : s.swg.run = false) (h n : Nat) :
    (opsEffect (.fall :: Pseudo.ticks n) (s.risen h)).channel .swg = (s.channel .swg).passing false := by
  rw [swing_fallen_channel free mode, if_neg pass, swing_pass_risen_channel free mode pass stopped]
  exact Channel.iterate_tick_of_stopped (c := (s.channel .swg).passing false) stopped n

/-! ## The obligation -/

/-- Settles O43: a wrap cycle is a timer's pulse, whose line R98 gives; on another cycle both edges write the line, and
the ticks of a stopped timer do not. -/
theorem swingDelaysWrapCyclesOnly : Obligations.SwingDelaysWrapCyclesOnly := by
  intro s h n free mode S
  refine ⟨fun wrap old sum => ?_, fun short stopped => ?_⟩
  · have pulse := swing_wrap_cycle_channel free mode (EdgeCounter.wraps_iff.mpr wrap) h n
    rw [Channel.iterate_tick_latch_arm old sum] at pulse
    exact ⟨_, execAll_eq_next _ s, congrArg Channel.line pulse⟩
  · have pass : ¬ s.div.wraps = true := fun wraps => Nat.not_le.mpr short (EdgeCounter.wraps_iff.mp wraps)
    have high := swing_pass_risen_channel free mode pass stopped h
    have low := swing_pass_fallen_channel free mode pass stopped h n
    exact ⟨s.risen h, _, (execAll_eq_next _ s).trans (congrArg _ (opsEffect_rise_ticks h s)),
      congrArg Channel.line high, execAll_eq_next _ _, congrArg Channel.line low, congrArg Channel.timer low⟩

end Sys2Proof.Machine

/-! # The ModeSelector (spec/43_mode_selector.md)

First a layer of facts about which operations write `MODE` and which of them read it; the obligations follow. -/

namespace Sys2Proof.Machine

/-! ## Who writes the mode -/

/-- R118: no levels of the two inputs select Disabled. -/
theorem modeOfInputs_ne_disabled (a b : Level) : modeOfInputs a b ≠ .disabled := by
  cases a <;> cases b <;> decide

theorem Configuration.written_mode_of_not_msel {i : Instr} (hi : ∀ a b, i ≠ .msel a b) (c : Configuration) :
    (c.written i).mode = c.mode := by
  cases i with
  | msel a b => exact absurd rfl (hi a b)
  | _ => rfl

/-- R118: MSEL is the one operation that writes `MODE`: the engine keeps the whole configuration, and the other
configuration operations write another register of it. -/
theorem opEffect_mode_of_not_msel {i : Instr} (hi : ∀ a b, i ≠ .msel a b) (s : State) :
    (opEffect i s).mode = s.mode := by
  by_cases engine : i ∈ [Instr.rise, .fall, .tick, .rsta, .rstr]
  · exact congrArg Configuration.mode (configuration_opEffect_of_engine engine s)
  · rw [opEffect_of_not_engine engine]
    exact Configuration.written_mode_of_not_msel hi s.configuration

/-! ## Who reads the mode -/

/-- What commutes with a change that keeps `HOLD` commutes with it also when held back (R130). -/
theorem unlessHeld_commute {f g : State → State} (hfg : Function.Commute f g) (keeps : ∀ s, (g s).hold = s.hold) :
    Function.Commute (unlessHeld f) g := by
  intro s
  simp only [unlessHeld, keeps s, hfg s, apply_ite g]

/-- A timer is clocked alike in every mode (R119). -/
theorem timerClock_setMode (t : TimerName) (m : Mode) : Function.Commute (timerClock t) (State.setMode · m) := by
  intro s
  simp only [timerClock_eq]
  cases t <;> rfl

/-- R115: an operation that neither dispatches on the mode nor writes it does the same whatever the mode is. -/
theorem opEffect_setMode {i : Instr} (hrise : i ≠ .rise) (hfall : i ≠ .fall) (hmsel : ∀ a b, i ≠ .msel a b)
    (m : Mode) : Function.Commute (opEffect i) (State.setMode · m) := by
  cases i with
  | rise => exact absurd rfl hrise
  | fall => exact absurd rfl hfall
  | tick =>
    exact unlessHeld_commute ((timerClock_setMode .swg m).comp_left (timerClock_setMode .dly m)) fun _ => rfl
  | rsta => exact fun _ => rfl
  | rstr => exact fun _ => rfl
  | msel a b => exact absurd rfl (hmsel a b)
  | setdiv v => exact fun _ => rfl
  | setcnt v => exact fun _ => rfl
  | setdly v => exact fun _ => rfl
  | setswg v => exact fun _ => rfl

/-! ## An operation's word as the next event word -/

/-- R57, R58: the word of an operation, presented, runs that operation with the stream behind it kept. -/
theorem step_present_encode {i : Instr} (wf : i.WellFormed) (s : State) :
    step (s.present (encode i)) = .next (opEffect i s) :=
  (step_of_decode rfl (decode_encode wf)).trans (exec_eq_next i s)

/-- R116: the word of an MSEL, presented, selects the mode of its two levels. -/
theorem step_present_msel (a b : Level) (s : State) :
    step (s.present (encode (.msel a b))) = .next (s.setMode (modeOfInputs a b)) :=
  step_present_encode rfl s

/-! ## The obligations -/

/-- Settles O21: an MSEL leaves the mode of its inputs, which is never Disabled, and the other operations keep the
mode. -/
theorem disabledIsNeverEntered : Obligations.DisabledIsNeverEntered := by
  refine ⟨rfl, fun i s t _ hexec => ?_⟩
  obtain rfl := exec_eq_next_iff.mp hexec
  have selected (a b : Level) (hi : i = .msel a b) : (opEffect i s).mode ≠ .disabled := by
    subst hi
    exact modeOfInputs_ne_disabled a b
  have kept (hi : ∀ a b, i ≠ .msel a b) : (opEffect i s).mode = s.mode := opEffect_mode_of_not_msel hi s
  refine ⟨selected, kept, fun disabled => ?_⟩
  have hi : ∀ a b, i ≠ .msel a b := fun a b hi => selected a b hi disabled
  rw [← kept hi, disabled]

/-- Settles O29: the operations but RISE, FALL and MSEL commute with a change of the mode. -/
theorem onlyEdgesReadTheMode : Obligations.OnlyEdgesReadTheMode := by
  intro i s t m hrise hfall hmsel hexec
  obtain rfl := exec_eq_next_iff.mp hexec
  exact exec_eq_next_iff.mpr (opEffect_setMode hrise hfall hmsel m s)

/-- Settles O20: R116's mapping is the model's own, and each word of R117's table is the word of an MSEL. -/
theorem mselMapsInputsToMode : Obligations.MselMapsInputsToMode :=
  ⟨fun a b s => exec_eq_next (.msel a b) s,
    fun s => ⟨step_present_msel false false s, step_present_msel true false s, step_present_msel false true s,
      step_present_msel true true s⟩,
    rfl, rfl, rfl⟩

end Sys2Proof.Machine

/-! # The ClockEngine (spec/44_clock_engine.md)

First a layer of facts: RISE and FALL as one equation per mode, TICK as one equation, what an edge makes of each
component, and what RSTA and the configuration operations depend on; the obligations follow. -/

namespace Sys2Proof.Machine

/-! ## RISE by mode -/

/-- A component after a rising edge that reaches it: one modulo step, with the output on exactly at a wrap (R71,
R74). -/
def EdgeCounter.risen (c : EdgeCounter) : EdgeCounter := { c.stepped with out := c.wraps }

theorem EdgeCounter.risen_eq (c : EdgeCounter) :
    c.risen =
      { pos := if decide (c.val.toNat ≤ c.pos.toNat + 1) then 0 else c.pos + 1
        val := c.val
        out := decide (c.val.toNat ≤ c.pos.toNat + 1) } := by
  simp [EdgeCounter.risen, EdgeCounter.stepped, EdgeCounter.wraps_eq]

theorem divRise_eq_risen (s : State) : divRise s = { s with div := s.div.risen } := by
  rw [divRise_eq, EdgeCounter.risen, EdgeCounter.wraps_eq]

theorem cntRise_eq_risen (s : State) : cntRise s = { s with cnt := s.cnt.risen, outDly := s.cnt.wraps } := by
  rw [cntRise_eq, EdgeCounter.risen, EdgeCounter.wraps_eq]

theorem opEffect_rise_disabled {s : State} (free : s.hold = false) (mode : s.mode = .disabled) :
    opEffect .rise s = { s with div := s.div.risen } := by
  simp only [opEffect_rise_of_free free, divRise_eq_risen, riseDispatch, mode]

theorem opEffect_rise_divideAndDelay {s : State} (free : s.hold = false) (mode : s.mode = .divideAndDelay) :
    opEffect .rise s =
      if s.div.wraps then { s with div := s.div.risen, dly := s.dly.armed, swg := s.swg.armed }
      else { s with div := s.div.risen, dly := s.dly.armed } := by
  simp only [opEffect_rise_of_free free, divRise_eq_risen, riseDispatch, mode]
  rfl

theorem opEffect_rise_divideAndCount {s : State} (free : s.hold = false) (mode : s.mode = .divideAndCount) :
    opEffect .rise s =
      { s with
        div := s.div.risen, cnt := s.cnt.risen, outDly := s.cnt.wraps
        outCmb := if s.div.wraps && s.cnt.wraps then true else s.outCmb } := by
  simp only [opEffect_rise_of_free free, divRise_eq_risen, riseDispatch, mode, cntRise_eq_risen]
  show (if (s.div.wraps && s.cnt.wraps) = true then _ else _) = _
  split <;> rfl

/-- The test of R125 on the divider's new position is its wrap. -/
theorem opEffect_rise_swing {s : State} (free : s.hold = false) (mode : s.mode = .swing) :
    opEffect .rise s =
      if s.div.wraps then { s with div := s.div.risen, swg := s.swg.armed }
      else { s with div := s.div.risen, outCmb := true } := by
  have wrapped : s.div.risen.pos = 0 ↔ s.div.wraps = true := EdgeCounter.stepped_pos_eq_zero_iff
  simp only [opEffect_rise_of_free free, divRise_eq_risen, riseDispatch, mode, wrapped]
  rfl

/-! ## FALL by mode -/

/-- The divider after a falling edge: its output goes off where the next rise would wrap (R75). -/
def EdgeCounter.fallen (c : EdgeCounter) : EdgeCounter := { c with out := c.out && !c.wraps }

theorem EdgeCounter.fallen_eq (c : EdgeCounter) :
    c.fallen = { c with out := c.out && decide (c.pos.toNat + 1 < c.val.toNat) } := by
  have below : (!c.wraps) = decide (c.pos.toNat + 1 < c.val.toNat) := by
    rw [EdgeCounter.wraps_eq, ← decide_not, decide_eq_decide]
    exact Nat.not_le
  rw [EdgeCounter.fallen, below]

theorem divFall_eq_fallen (s : State) : divFall s = { s with div := s.div.fallen } := by
  rw [divFall_eq, EdgeCounter.fallen, EdgeCounter.wraps_eq]

theorem fallDispatch_divideAndDelay {s : State} (mode : s.mode = .divideAndDelay) :
    fallDispatch s = if s.div.out then timerFall .swg (timerFall .dly s) else timerFall .dly s := by
  simp only [fallDispatch, mode]

theorem fallDispatch_divideAndCount {s : State} (mode : s.mode = .divideAndCount) :
    fallDispatch s = (cntFall s).setOutCmb false := by
  simp only [fallDispatch, mode]

theorem fallDispatch_swing {s : State} (mode : s.mode = .swing) :
    fallDispatch s = if s.div.pos = 0 then timerFall .swg s else s.setOutCmb false := by
  simp only [fallDispatch, mode]

theorem opEffect_fall_disabled {s : State} (free : s.hold = false) (mode : s.mode = .disabled) :
    opEffect .fall s = { s with div := s.div.fallen } := by
  simp only [opEffect_fall_of_free free, fallDispatch, mode, divFall_eq_fallen]

theorem opEffect_fall_divideAndDelay {s : State} (free : s.hold = false) (mode : s.mode = .divideAndDelay) :
    opEffect .fall s =
      if s.div.out then { s with div := s.div.fallen, dly := s.dly.latched, swg := s.swg.latched }
      else { s with div := s.div.fallen, dly := s.dly.latched } := by
  rw [opEffect_fall_of_free free, fallDispatch_divideAndDelay mode, divFall_eq_fallen, timerFall_eq, timerFall_eq]
  split <;> rfl

theorem opEffect_fall_divideAndCount {s : State} (free : s.hold = false) (mode : s.mode = .divideAndCount) :
    opEffect .fall s =
      { s with div := s.div.fallen, cnt := { s.cnt with out := false }, outDly := false, outCmb := false } := by
  rw [opEffect_fall_of_free free, fallDispatch_divideAndCount mode, divFall_eq_fallen]
  rfl

theorem opEffect_fall_swing {s : State} (free : s.hold = false) (mode : s.mode = .swing) :
    opEffect .fall s =
      if s.div.pos = 0 then { s with div := s.div.fallen, swg := s.swg.latched }
      else { s with div := s.div.fallen, outCmb := false } := by
  rw [opEffect_fall_of_free free, fallDispatch_swing mode, divFall_eq_fallen, timerFall_eq]
  split <;> rfl

/-! ## TICK -/

theorem OneShotTimer.clockedLine_eq (x : OneShotTimer) (l : Level) :
    x.clockedLine l =
      if x.run = false then l
      else if x.fall.toNat < (x.pos + 1).toNat then false
      else if x.rise.toNat < (x.pos + 1).toNat then true else l := by
  cases run : x.run <;> simp [OneShotTimer.clockedLine, run]

/-- R127: the two timers do not share a register or a line, so each is clocked from the state before the tick. -/
theorem opEffect_tick_eq {s : State} (free : s.hold = false) :
    opEffect .tick s =
      { s with
        dly := s.dly.clocked, outDly := s.dly.clockedLine s.outDly
        swg := s.swg.clocked, outCmb := s.swg.clockedLine s.outCmb } := by
  rw [opEffect_tick_of_free free, timerClock_eq, timerClock_eq]
  rfl

/-! ## What the edges and the tick make of each component -/

/-- R134: a rising edge leaves a timer as it is, or arms it. -/
theorem opEffect_rise_timer (s : State) (t : TimerName) :
    (opEffect .rise s).timer t = s.timer t ∨ (opEffect .rise s).timer t = (s.timer t).armed := by
  cases hold : s.hold
  case true => exact .inl (by rw [opEffect_of_held (.inl rfl) hold])
  case false =>
    cases mode : s.mode
    case disabled =>
      rw [opEffect_rise_disabled hold mode]
      exact .inl (by cases t <;> rfl)
    case divideAndDelay =>
      rw [opEffect_rise_divideAndDelay hold mode]
      split <;> cases t <;> simp [State.timer]
    case divideAndCount =>
      rw [opEffect_rise_divideAndCount hold mode]
      exact .inl (by cases t <;> rfl)
    case swing =>
      rw [opEffect_rise_swing hold mode]
      split <;> cases t <;> simp [State.timer]

/-- R134: a falling edge leaves a timer as it is, or latches its fall mark. -/
theorem opEffect_fall_timer (s : State) (t : TimerName) :
    (opEffect .fall s).timer t = s.timer t ∨ (opEffect .fall s).timer t = (s.timer t).latched := by
  cases hold : s.hold
  case true => exact .inl (by rw [opEffect_of_held (.inr (.inl rfl)) hold])
  case false =>
    cases mode : s.mode
    case disabled =>
      rw [opEffect_fall_disabled hold mode]
      exact .inl (by cases t <;> rfl)
    case divideAndDelay =>
      rw [opEffect_fall_divideAndDelay hold mode]
      split <;> cases t <;> simp [State.timer]
    case divideAndCount =>
      rw [opEffect_fall_divideAndCount hold mode]
      exact .inl (by cases t <;> rfl)
    case swing =>
      rw [opEffect_fall_swing hold mode]
      split <;> cases t <;> simp [State.timer]

/-- R134: a rising edge keeps the fall marks. -/
theorem opEffect_rise_timer_fall (s : State) (t : TimerName) :
    ((opEffect .rise s).timer t).fall = (s.timer t).fall := by
  rcases opEffect_rise_timer s t with kept | armed
  · rw [kept]
  · rw [armed]
    rfl

/-- R134: a falling edge keeps what counts and runs a timer. -/
theorem opEffect_fall_timer_frame (s : State) (t : TimerName) :
    ((opEffect .fall s).timer t).pos = (s.timer t).pos ∧ ((opEffect .fall s).timer t).rise = (s.timer t).rise ∧
      ((opEffect .fall s).timer t).run = (s.timer t).run := by
  rcases opEffect_fall_timer s t with kept | latched
  · rw [kept]
    exact ⟨rfl, rfl, rfl⟩
  · rw [latched]
    exact ⟨rfl, rfl, rfl⟩

/-- R134: a falling edge moves no counter. -/
theorem opEffect_fall_counter_pos (s : State) :
    (opEffect .fall s).div.pos = s.div.pos ∧ (opEffect .fall s).cnt.pos = s.cnt.pos := by
  cases hold : s.hold
  case true => simp [opEffect_of_held, hold]
  case false =>
    refine ⟨by rw [opEffect_fall_div hold], ?_⟩
    by_cases mode : s.mode = .divideAndCount
    · rw [(opEffect_fall_cnt hold mode).1]
    · rw [opEffect_fall_of_free hold, divFall_eq_fallen, (fallDispatch_frame s).cnt mode]

/-- R134: a tick keeps both marks of a timer. -/
theorem opEffect_tick_timer_marks (s : State) (t : TimerName) :
    ((opEffect .tick s).timer t).rise = (s.timer t).rise ∧ ((opEffect .tick s).timer t).fall = (s.timer t).fall := by
  cases hold : s.hold
  case true => simp [opEffect_of_held, hold]
  case false =>
    have clocked := congrArg Channel.timer (opEffect_tick_channel hold t)
    exact ⟨(congrArg OneShotTimer.rise clocked).trans (OneShotTimer.clocked_rise _),
      (congrArg OneShotTimer.fall clocked).trans (OneShotTimer.clocked_fall _)⟩

@[simp] theorem opEffect_tick_cnt (s : State) : (opEffect .tick s).cnt = s.cnt := by
  cases hold : s.hold
  case true => rw [opEffect_of_held (.inr (.inr rfl)) hold]
  case false => rw [opEffect_tick_eq hold]

/-- R134: the edges and the tick write neither the configuration nor `HOLD`. -/
theorem opEffect_event_frame {i : Instr} (hi : i ∈ [Instr.rise, .fall, .tick]) (s : State) :
    (opEffect i s).configuration = s.configuration ∧ (opEffect i s).hold = s.hold := by
  refine ⟨configuration_opEffect_of_engine (List.mem_append_left [.rsta, .rstr] hi) s, ?_⟩
  simp only [List.mem_cons, List.not_mem_nil, or_false] at hi
  rcases hi with rfl | rfl | rfl
  · exact opEffect_rise_hold s
  · exact opEffect_fall_hold s
  · exact opEffect_tick_hold s

/-! ## What the other operations depend on -/

@[simp] theorem opEffect_events (i : Instr) (s : State) : (opEffect i s).events = s.events := by
  have own : opEffect i s = (opEffect i s).withEvents s.events := opEffect_withEvents i s.events s
  rw [own]
  rfl

/-- R128: the state RSTA leaves depends on the configuration alone, beside the stream. -/
theorem opEffect_rsta_congr {s t : State} (config : t.configuration = s.configuration) (stream : t.events = s.events) :
    opEffect .rsta t = opEffect .rsta s := by
  obtain ⟨hdiv, hcnt, hdly, hswg, hmode⟩ := configuration_eq_iff.mp config
  rw [opEffect_rsta_eq, opEffect_rsta_eq, hdiv, hcnt, hdly, hswg, hmode, stream]

theorem State.setHold_of_hold {s : State} {l : Level} (h : s.hold = l) : s.setHold l = s := by
  subst h
  rfl

/-- R130: a configuration operation does the same whatever `HOLD` is, and keeps it. -/
theorem opEffect_setHold_of_not_engine {i : Instr} (hi : i ∉ [Instr.rise, .fall, .tick, .rsta, .rstr]) (l : Level) :
    Function.Commute (opEffect i) (State.setHold · l) := by
  intro s
  simp only [opEffect_of_not_engine hi]
  rfl

/-! ## The obligations -/

/-- Settles O13: every operation commutes with a change of the stream. -/
theorem operationsNeitherReadNorWriteStream : Obligations.OperationsNeitherReadNorWriteStream := by
  intro i s t es hexec
  obtain rfl := exec_eq_next_iff.mp hexec
  exact ⟨opEffect_events i s, exec_eq_next_iff.mpr (opEffect_withEvents i es s)⟩

/-- Settles O14: held, nothing happens; else the equation of RISE in each mode, its wraps as comparisons of numbers. -/
theorem riseStepsDividerThenDispatches : Obligations.RiseStepsDividerThenDispatches := by
  refine ⟨decode_encode (i := .rise) rfl, fun s => ⟨fun held => ?_, fun free => ?_⟩⟩
  · rw [exec_eq_next, opEffect_of_held (.inl rfl) held]
  · intro wrap cwrap d c dly swg
    have hwrap : s.div.wraps = wrap := s.div.wraps_eq
    have hcwrap : s.cnt.wraps = cwrap := s.cnt.wraps_eq
    have hd : s.div.risen = d := s.div.risen_eq
    have hc : s.cnt.risen = c := s.cnt.risen_eq
    refine exec_eq_next_iff.mpr ?_
    split
    case h_1 mode => rw [opEffect_rise_swing free mode, hd, hwrap]; rfl
    case h_2 mode => rw [opEffect_rise_divideAndCount free mode, hd, hc, hwrap, hcwrap]
    case h_3 mode => rw [opEffect_rise_divideAndDelay free mode, hd, hwrap]; rfl
    case h_4 mode => rw [opEffect_rise_disabled free mode, hd]

/-- Settles O15: held, nothing happens; else the equation of FALL in each mode. -/
theorem fallDispatchesThenDividerFalls : Obligations.FallDispatchesThenDividerFalls := by
  refine ⟨decode_encode (i := .fall) rfl, fun s => ⟨fun held => ?_, fun free => ?_⟩⟩
  · rw [exec_eq_next, opEffect_of_held (.inr (.inl rfl)) held]
  · intro d dly swg
    have hd : s.div.fallen = d := s.div.fallen_eq
    refine exec_eq_next_iff.mpr ?_
    split
    case h_1 mode => rw [opEffect_fall_swing free mode, hd]; rfl
    case h_2 mode => rw [opEffect_fall_divideAndCount free mode, hd]
    case h_3 mode => rw [opEffect_fall_divideAndDelay free mode, hd]; rfl
    case h_4 mode => rw [opEffect_fall_disabled free mode, hd]

/-- Settles O16: held, nothing happens; else the equation of TICK. -/
theorem tickClocksBothTimers : Obligations.TickClocksBothTimers := by
  refine ⟨decode_encode (i := .tick) rfl, fun s => ⟨fun held => ?_, fun free => ?_⟩⟩
  · rw [exec_eq_next, opEffect_of_held (.inr (.inr rfl)) held]
  · intro after line
    rw [exec_eq_next, opEffect_tick_eq free, OneShotTimer.clockedLine_eq, OneShotTimer.clockedLine_eq]
    rfl

/-- Settles O18: RSTR is the one write of `HOLD`, which a state not held does not notice. -/
theorem rstrReleasesHoldOnly : Obligations.RstrReleasesHoldOnly := by
  refine ⟨decode_encode (i := .rstr) rfl, fun s => ⟨exec_eq_next .rstr s, fun free => ?_, fun i _ => ?_⟩⟩
  · exact exec_eq_next_iff.mpr (State.setHold_of_hold free)
  · rw [execAll_cons, execAll_cons, exec_eq_next]
    rfl

/-- Settles O19: the edges and the tick return at once, RSTA and RSTR write `HOLD` whatever it was, and the
configuration operations commute with a change of it. -/
theorem holdSuspendsEdgesAndTicksOnly : Obligations.HoldSuspendsEdgesAndTicksOnly := by
  refine fun s held => ⟨fun i hi => ?_, fun i hi => ?_, fun i t _ hi hexec => ?_⟩
  · exact exec_eq_next_iff.mpr (opEffect_of_held (by simpa using hi) held)
  · simp only [List.mem_cons, List.not_mem_nil, or_false] at hi
    rcases hi with rfl | rfl <;> rfl
  · obtain rfl := exec_eq_next_iff.mp hexec
    have commutes := opEffect_setHold_of_not_engine hi
    refine exec_eq_next_iff.mpr ?_
    calc opEffect i s = opEffect i ((s.setHold false).setHold true) :=
          congrArg (opEffect i) (State.setHold_of_hold held).symm
      _ = (opEffect i (s.setHold false)).setHold true := commutes true (s.setHold false)

/-- Settles O25: the frame lemmas of RISE, FALL and TICK, and RSTA and RSTR by their equations. -/
theorem engineOperationsFrame : Obligations.EngineOperationsFrame := by
  intro i s t hexec
  obtain rfl := exec_eq_next_iff.mp hexec
  refine ⟨fun hi => ?events, ?rise, ?fall, ?tick, ?rsta, ?rstr⟩
  case events =>
    obtain ⟨config, hold⟩ := opEffect_event_frame hi s
    obtain ⟨hdiv, hcnt, hdly, hswg, hmode⟩ := configuration_eq_iff.mp config
    exact ⟨hdiv, hcnt, hdly, hswg, hmode, hold⟩
  case rise =>
    rintro rfl
    exact ⟨opEffect_rise_timer_fall s .dly, opEffect_rise_timer_fall s .swg⟩
  case fall =>
    rintro rfl
    obtain ⟨hdiv, hcnt⟩ := opEffect_fall_counter_pos s
    obtain ⟨dlyPos, dlyRise, dlyRun⟩ := opEffect_fall_timer_frame s .dly
    exact ⟨hdiv, hcnt, dlyPos, dlyRise, dlyRun, opEffect_fall_timer_frame s .swg⟩
  case tick =>
    rintro rfl
    obtain ⟨dlyRise, dlyFall⟩ := opEffect_tick_timer_marks s .dly
    obtain ⟨swgRise, swgFall⟩ := opEffect_tick_timer_marks s .swg
    exact ⟨dlyRise, dlyFall, swgRise, swgFall, opEffect_tick_div s, opEffect_tick_cnt s⟩
  case rsta =>
    rintro rfl
    exact configuration_eq_iff.mp (configuration_opEffect_of_engine (by simp) s)
  case rstr =>
    rintro rfl
    rfl

/-- Settles O45: an event before RSTA keeps the configuration, all that RSTA reads; an event after it finds `HOLD`
asserted. -/
theorem resetAbsorbsCoincidentEvent : Obligations.ResetAbsorbsCoincidentEvent := by
  intro s i hi
  obtain ⟨config, -⟩ := opEffect_event_frame hi s
  have before : opEffect .rsta (opEffect i s) = opEffect .rsta s := opEffect_rsta_congr config (opEffect_events i s)
  have after : opEffect i (opEffect .rsta s) = opEffect .rsta s := opEffect_of_held (by simpa using hi) rfl
  rw [execAll_cons, execAll_cons, before, execAll_cons, execAll_cons, after, exec_eq_next]
  exact ⟨rfl, rfl⟩

end Sys2Proof.Machine

/-! # The configuration operations (spec/45_config_ops.md)

First what a code with a numeric operand under it does as the next event word, and which of these words are no
operation; the obligations follow. -/

namespace Sys2Proof.Machine

/-! ## An operand's word as the next event word -/

/-- R57: where the words of the operations `mk v` are the code `c` with the `k`-bit operand added, the word `c + n`,
presented, runs the operation with the operand `n`. -/
theorem step_present_operand {k c n : Nat} {mk : BitVec k → Instr}
    (word : ∀ v, encode (mk v) = BitVec.ofNat 20 (c + v.toNat)) (fits : n < 2 ^ k)
    (wf : (mk (BitVec.ofNat k n)).WellFormed) (s : State) :
    step (s.present (BitVec.ofNat 20 (c + n))) = .next (opEffect (mk (BitVec.ofNat k n)) s) := by
  have operand : (BitVec.ofNat k n).toNat = n := Nat.mod_eq_of_lt fits
  have head : encode (mk (BitVec.ofNat k n)) = BitVec.ofNat 20 (c + n) := by rw [word, operand]
  rw [← head]
  exact step_present_encode wf s

/-- A modulus that is at most 16 as a number is so as an operand (R59). -/
theorem toNat_ofNat_count_le {n : Nat} (legal : n ≤ 16) : (BitVec.ofNat 5 n).toNat ≤ 16 :=
  (Nat.mod_le n _).trans legal

/-- R59, R162: a word that a step refuses as reserved is no operation. -/
theorem decode_ne_ok_of_refused {s : State} {w : Word} {why : Reserved}
    (refused : step (s.present w) = .refused (.reservedWord why)) (i : Instr) : decode w ≠ .ok i := by
  rw [(step_refuses_iff rfl).mp refused]
  nofun

/-! ## The obligations -/

/-- Settles O22: with `v <= 16` the words are those of SETDIV and SETCNT, which run whatever `HOLD` is; the words from 17
to 31 are the refused ones of `modulusAboveMaxIsRefused`. -/
theorem modulusWritesChangeOneRegister : Obligations.ModulusWritesChangeOneRegister := by
  refine ⟨fun v s _ => exec_eq_next (.setdiv v) s, fun v s _ => exec_eq_next (.setcnt v) s, fun n s legal => ?_,
    fun n i above below => ?_⟩
  · have fits : n < 2 ^ 5 := by omega
    have operand := toNat_ofNat_count_le legal
    exact ⟨step_present_operand (mk := .setdiv) (fun _ => rfl) fits (wellFormed_setdiv_iff.mpr operand) s,
      step_present_operand (mk := .setcnt) (fun _ => rfl) fits (wellFormed_setcnt_iff.mpr operand) s⟩
  · obtain ⟨setdiv, setcnt⟩ := modulusAboveMaxIsRefused n State.reset above below
    exact ⟨decode_ne_ok_of_refused setdiv i, decode_ne_ok_of_refused setcnt i⟩

/-- Settles O23: every 16-bit operand of SETDLY and SETSWG is legal, and both run whatever `HOLD` and the timers are. -/
theorem delayWritesChangeOneRegister : Obligations.DelayWritesChangeOneRegister := by
  refine ⟨fun v s => exec_eq_next (.setdly v) s, fun v s => exec_eq_next (.setswg v) s, fun n s legal => ?_⟩
  have fits : n < 2 ^ 16 := by omega
  exact ⟨step_present_operand (mk := .setdly) (fun _ => rfl) fits rfl s,
    step_present_operand (mk := .setswg) (fun _ => rfl) fits rfl s⟩

end Sys2Proof.Machine

/-! # Exceptions and event sources (spec/60_exceptions.md)

The block raises no exception (R160): first what one step does on a stream without reserved words; the obligations
follow. -/

namespace Sys2Proof.Machine

/-! ## One step on a clean stream -/

/-- Log entry 2: with no word presented the block waits. -/
theorem step_of_empty {s : State} (empty : s.events = []) : step s = .next s := by
  simp only [step, fetch_eq, empty]

/-- A step consumes the next word and no other (R163), and completes where that word is not reserved (R160). -/
theorem step_of_cleanStream {s : State} (clean : CleanStream s) :
    ∃ u, step s = .next u ∧ u.events = s.events.drop 1 := by
  cases hev : s.events with
  | nil => exact ⟨s, step_of_empty hev, hev⟩
  | cons w rest =>
    have decodes : (decode w).isOk = true := clean w (hev ▸ List.mem_cons_self)
    cases hd : decode w with
    | error r => simp [hd, Except.isOk, Except.toBool] at decodes
    | ok i => exact ⟨_, (step_of_decode hev hd).trans (exec_eq_next i _), opEffect_events i _⟩

/-- What is left of a clean stream is clean. -/
theorem cleanStream_of_events_drop {s t : State} {k : Nat} (clean : CleanStream s) (left : t.events = s.events.drop k) :
    CleanStream t :=
  fun w hw => clean w (List.mem_of_mem_drop (left ▸ hw))

/-! ## The obligations -/

/-- Settles O11, by induction on the number of steps: the first one completes and leaves a clean stream for the rest. -/
theorem cleanStreamRunsToItsEnd : Obligations.CleanStreamRunsToItsEnd := by
  intro k
  induction k with
  | zero => exact fun s clean => ⟨s, rfl, rfl, clean⟩
  | succ k ih =>
    intro s clean
    obtain ⟨u, hstep, consumed⟩ := step_of_cleanStream clean
    obtain ⟨t, hrun, left, clean'⟩ := ih u (cleanStream_of_events_drop clean consumed)
    refine ⟨t, (run_succ_of_step (M := Sys2Proof.core) hstep).trans hrun, ?_, clean'⟩
    calc t.events = (s.events.drop 1).drop k := by rw [left, consumed]
      _ = s.events.drop (k + 1) := by rw [List.drop_drop, Nat.add_comm]

/-- Settles O12: an operation's effect is a total function of the state, which `exec` answers for every operand, the
legal ones among them. -/
theorem everyOperationCompletes : Obligations.EveryOperationCompletes :=
  fun i s _ => ⟨opEffect i s, exec_eq_next i s⟩

end Sys2Proof.Machine

/-! # Reset and hazards (spec/70_reset_and_hazards.md)

First what a reset leaves for the arming after it, and what the edges and the tick make of the block at power-on; the
obligations follow. -/

namespace Sys2Proof.Machine

/-! ## The first arming after a reset -/

/-- R188: an arming under the fall mark 0 is cut short by its first tick, and later ticks find a stopped timer. -/
theorem Channel.iterate_tick_arm_of_fall_zero {c : Channel} (mark : c.timer.fall = 0) {n : Nat} (hn : 1 ≤ n) :
    Channel.tick^[n] c.arm = { timer := { c.timer.armed with pos := 1, run := false }, line := false } := by
  have zero : c.arm.timer.fall.toNat = 0 := congrArg BitVec.toNat mark
  have past : c.arm.timer.fall.toNat < c.arm.timer.pos.toNat + n := by omega
  rw [iterate_tick_eq rfl (Nat.zero_le _) (by omega), OneShotTimer.ticked, if_neg (Nat.not_le.mpr past),
    OneShotTimer.tickedLine, if_pos past]
  show ({ timer := { c.timer.armed with pos := c.timer.fall + 1, run := false }, line := false } : Channel) = _
  rw [mark]
  rfl

/-- R125: in DivideAndDelay a rising edge that wraps the divider arms both timers. -/
theorem State.Delaying.rise_channel_of_wraps {s : State} (d : s.Delaying) (wraps : s.div.wraps = true) (t : TimerName) :
    (Machine.opEffect .rise s).channel t = (s.channel t).arm := by
  rw [opEffect_rise_divideAndDelay d.free d.mode, if_pos wraps]
  cases t <;> rfl

/-- R126: in DivideAndDelay a falling edge with `OUT_DIV` on latches both fall marks. -/
theorem State.Delaying.fall_channel_of_on {s : State} (d : s.Delaying) (on : s.div.out = true) (t : TimerName) :
    (Machine.opEffect .fall s).channel t = (s.channel t).latch := by
  rw [opEffect_fall_divideAndDelay d.free d.mode, if_pos on]
  cases t <;> rfl

/-- The state that the pseudo-operation RESET leaves (R57): RSTA, then RSTR. -/
def State.released (s : State) : State := opEffect .rstr (opEffect .rsta s)

/-- R128: both timers come out of a reset cleared, with their lines off. -/
theorem released_channel (s : State) (t : TimerName) :
    s.released.channel t = { timer := (s.timer t).cleared, line := false } := by
  cases t <;> rfl

/-- R76: the divider comes out of a reset at a position from which the next rising edge wraps. -/
theorem released_div_wraps (s : State) : s.released.div.wraps = true := EdgeCounter.wraps_of_pos_eq_val rfl

theorem released_delaying {s : State} (mode : s.mode = .divideAndDelay) : s.released.Delaying := ⟨rfl, mode⟩

/-- R188: after the reset, the arming and any ticks both timers stand stopped at position 1, with `rise` latched. -/
theorem released_armed_channel {s : State} (mode : s.mode = .divideAndDelay) {n : Nat} (hn : 1 ≤ n) (t : TimerName) :
    ((opEffect .tick)^[n] (opEffect .rise s.released)).channel t =
      { timer := { (s.timer t).cleared.armed with pos := 1, run := false }, line := false } := by
  have d := released_delaying mode
  rw [iterate_opEffect_tick_channel (d.opEffect (.inl rfl)).free, d.rise_channel_of_wraps (released_div_wraps s),
    released_channel, Channel.iterate_tick_arm_of_fall_zero rfl hn]

/-- The rising edge after a reset turns `OUT_DIV` on, and no tick turns it off. -/
theorem released_armed_div_out (s : State) (n : Nat) :
    ((opEffect .tick)^[n] (opEffect .rise s.released)).div.out = true := by
  rw [iterate_opEffect_tick_div, opEffect_rise_div rfl]
  exact released_div_wraps s

/-! ## The block at power-on -/

/-- Power-on with `OUT_DIV` at the level `l` (R181). -/
def State.copying (l : Level) : State := { State.reset with div := { pos := 0, val := 0, out := l } }

theorem copying_false : State.copying false = State.reset := rfl

/-- R77: with the modulus 0 every rising edge wraps, and in Disabled it reaches the divider only (R125). -/
theorem opEffect_rise_copying (l : Level) : opEffect .rise (State.copying l) = State.copying true := by
  have wraps : (State.copying l).div.wraps = true := EdgeCounter.wraps_of_val_le_one (Nat.zero_le 1)
  have div : (State.copying l).div.risen = (State.copying true).div :=
    (EdgeCounter.mk.injEq ..).mpr ⟨EdgeCounter.stepped_pos_of_wraps wraps, rfl, wraps⟩
  rw [opEffect_rise_disabled rfl rfl, div]
  rfl

/-- R75: with the modulus 0 every falling edge turns the divider's output off. -/
theorem opEffect_fall_copying (l : Level) : opEffect .fall (State.copying l) = State.copying false := by
  have wraps : (State.copying l).div.wraps = true := EdgeCounter.wraps_of_val_le_one (Nat.zero_le 1)
  rw [opEffect_fall_disabled rfl rfl, EdgeCounter.fallen, wraps, Bool.not_true, Bool.and_false]
  rfl

/-- R99: the timers stand stopped at power-on, so a tick does nothing. -/
theorem opEffect_tick_copying (l : Level) : opEffect .tick (State.copying l) = State.copying l :=
  opEffect_tick_eq rfl

/-- R181: edges and ticks change nothing but the level of `OUT_DIV`. -/
theorem opsEffect_copying {ops : List Instr} (events : ∀ i ∈ ops, i = .rise ∨ i = .fall ∨ i = .tick) (l : Level) :
    ∃ l', opsEffect ops (State.copying l) = State.copying l' := by
  induction ops generalizing l with
  | nil => exact ⟨l, rfl⟩
  | cons i ops ih =>
    obtain ⟨head, rest⟩ := List.forall_mem_cons.mp events
    rw [opsEffect_cons]
    rcases head with rfl | rfl | rfl
    · rw [opEffect_rise_copying]
      exact ih rest true
    · rw [opEffect_fall_copying]
      exact ih rest false
    · rw [opEffect_tick_copying]
      exact ih rest l

/-- After any edges and ticks from power-on, the level that one more operation gives `OUT_DIV` stays under ticks. -/
theorem execAll_events_then_ticks {ops : List Instr} (events : ∀ i ∈ ops, i = .rise ∨ i = .fall ∨ i = .tick)
    {i : Instr} {l : Level} (last : ∀ l', opEffect i (State.copying l') = State.copying l) (n : Nat) :
    execAll (ops ++ i :: Pseudo.ticks n) State.reset = .next (State.copying l) := by
  obtain ⟨l', before⟩ := opsEffect_copying events false
  rw [execAll_eq_next, opsEffect_append, opsEffect_cons, opsEffect_ticks, ← copying_false, before, last,
    Function.iterate_fixed (opEffect_tick_copying l)]

/-! ## The obligations -/

/-- Settles O41: the reset leaves the fall mark 0 under which the arming is cut short, and the divider's output on,
so that the falling edge latches `rise + 1` in both timers. -/
theorem firstArmingAfterResetIsCutShort : Obligations.FirstArmingAfterResetIsCutShort := by
  intro s n mode hn
  have run : opsEffect ([.rsta, .rstr, .rise] ++ Pseudo.ticks n) s =
      (opEffect .tick)^[n] (opEffect .rise s.released) :=
    (opsEffect_append _ _ s).trans (opsEffect_ticks n _)
  refine ⟨_, _, execAll_eq_next _ s, exec_eq_next .fall _, ?_⟩
  rw [run]
  have d : ((opEffect .tick)^[n] (opEffect .rise s.released)).Delaying :=
    ((released_delaying mode).opEffect (.inl rfl)).iterate_tick n
  have fall := d.fall_channel_of_on (released_armed_div_out s n)
  have armed := released_armed_channel mode hn
  generalize (opEffect .tick)^[n] (opEffect .rise s.released) = t at fall armed
  have dly : t.dly = _ := congrArg Channel.timer (armed .dly)
  have swg : t.swg = _ := congrArg Channel.timer (armed .swg)
  have outDly : t.outputs.dly = false := congrArg Channel.line (armed .dly)
  have outCmb : t.outputs.cmb = false := congrArg Channel.line (armed .swg)
  have dlyMark : (opEffect .fall t).dly.fall = t.dly.rise + t.dly.pos := congrArg (·.timer.fall) (fall .dly)
  have swgMark : (opEffect .fall t).swg.fall = t.swg.rise + t.swg.pos := congrArg (·.timer.fall) (fall .swg)
  rw [dlyMark, swgMark, dly, swg]
  exact ⟨rfl, rfl, outDly, rfl, rfl, outCmb, rfl, rfl⟩

/-- Settles O44: a RISE turns `OUT_DIV` on and a FALL turns it off, at whichever level the operations before left it. -/
theorem unconfiguredBlockCopiesClock : Obligations.UnconfiguredBlockCopiesClock :=
  fun _ n events =>
    ⟨execAll_events_then_ticks events opEffect_rise_copying n, execAll_events_then_ticks events opEffect_fall_copying n⟩

end Sys2Proof.Machine

/-! # The next event word (spec/30_encoding.md section 5)

First a step with no word presented set against one that goes on with a word, and an event word read back from its
number in the opcode table; the obligations follow. -/

namespace Sys2Proof.Machine

/-! ## Waiting and consuming -/

/-- R44, R58: a step that goes on while a word is presented leaves the words behind it. -/
theorem step_next_events {s t : State} (h : step s = .next t) {w : Word} {rest : List Word}
    (hev : s.events = w :: rest) : t.events = rest := by
  rcases step_next_cases h with ⟨empty, -⟩ | ⟨w', rest', i, hev', -, -, rfl⟩
  · exact absurd (hev.symm.trans empty) (List.cons_ne_nil w rest)
  · obtain ⟨-, same⟩ := List.cons.inj (hev'.symm.trans hev)
    exact (opEffect_events i _).trans same

/-! ## An event word held by more bits -/

/-- Log entry 10: 20 bits or more hold every event word. -/
theorem tableWord_toNat {nbits : Nat} (wide : 20 ≤ nbits) (w : Word) : tableWord nbits w.toNat = some w := by
  have holds : w.toNat % 2 ^ nbits = w.toNat := Nat.mod_eq_of_lt (BitVec.toNat_lt_twoPow_of_le wide)
  rw [tableWord, holds, if_pos w.isLt, BitVec.ofNat_toNat, BitVec.setWidth_eq]

theorem decodeTableWord_toNat {nbits : Nat} (wide : 20 ≤ nbits) (w : Word) :
    decodeTableWord nbits w.toNat = (decode w).toOption := by
  rw [decodeTableWord, tableWord_toNat wide]

theorem withFetchWord_toNat {nbits : Nat} (wide : 20 ≤ nbits) (w : Word) (s : State) :
    s.withFetchWord nbits w.toNat = s.present w := by
  rw [State.withFetchWord, tableWord_toNat wide, Option.getD_some]

/-! ## The obligations -/

/-- Settles O8: a step that goes on with a word presented shortens the stream, so it cannot leave it as it was. -/
theorem stepWaitsOnlyOnEmptyStream : Obligations.StepWaitsOnlyOnEmptyStream := by
  refine fun s => ⟨step_of_empty, fun t hstep kept => ?_⟩
  cases hev : s.events with
  | nil => rfl
  | cons w rest =>
    have consumed : rest = w :: rest := (step_next_events hstep hev).symm.trans (kept.trans hev)
    exact absurd consumed.symm (List.cons_ne_self w rest)

/-- Settles O9: the 24 bits of a table row hold the operation's word, which is then presented and decodes to it. -/
theorem placedWordRunsFirst : Obligations.PlacedWordRunsFirst := by
  intro s i wf
  have wide : 20 ≤ 24 := by decide
  constructor
  · calc step (s.withFetchWord 24 (encode i).toNat)
      _ = step (s.present (encode i)) := by rw [withFetchWord_toNat wide]
      _ = .next (opEffect i s) := step_present_encode wf s
      _ = exec i s := (exec_eq_next i s).symm
  · rw [decodeTableWord_toNat wide, decode_encode wf]
    rfl

end Sys2Proof.Machine
